-- ==== Sys2Proof/Word.lean ====
section
/-! DEFINITION. The word types of the clockless pulse encoder: the widths the spec gives (R15, R39 to R49, R87).
A register whose width is a parameter (CNT_W) is a natural number below 2^CNT_W, as R15 has it. -/

namespace Sys2Proof

/-- A colour byte, the byte cursor B, the bit counter I (R41, R42). -/
abbrev Byte := BitVec 8

/-- A micro-op word (R111). -/
abbrev Word16 := BitVec 16

/-- A host register word (R50) or host command word (R130). -/
abbrev Word32 := BitVec 32

/-- A micro-ROM address, the width of upc and LR (R46, R49). -/
abbrev UAddr := BitVec 10

/-- A value of the GPIO port. PORT_W is a parameter of at most 32 (R12): the value stands in the low PORT_W bits and
the bits above them are 0 (log 5). -/
abbrev PortWord := BitVec 32

end Sys2Proof
end

