-- ==== Sys2Proof/Syntax.lean ====
section
/-! DEFINITION. The instructions: one constructor per row of spec/opcode_table.json, the 31 micro-ops of R120 and the three
host commands of R131, and the code words that carry them. -/

namespace Sys2Proof

/-- The instructions. An operand is the plain unsigned bit field of its encoding (R117). -/
inductive Instr where
  -- timer and port (40_timer_port.md)
  | nop
  | tcfg
  | trst
  | ten
  | tdis
  | waitf (flg : BitVec 2)
  | masks
  | pwh
  | pwl
  | cli
  | rsi
  -- byte walker (41_byte_walker.md)
  | wsel
  | ldbits (n : BitVec 8)
  | shl
  | bnz (tgt : UAddr)
  | call (tgt : UAddr)
  | ret
  -- frame driver (42_frame_driver.md)
  | srcpd
  | srcsd
  | srcld (ch : BitVec 2)
  | srcadv
  | srchas
  | bf (tgt : UAddr)
  | jmp (tgt : UAddr)
  | bnt (tgt : UAddr)
  | dlrst
  | dlchk
  | pgwait
  | pgmark
  | endok
  | endab
  -- host commands (43_host_commands.md)
  | initCmd
  | showCmd
  | clearCmd (count : BitVec 24)
  deriving DecidableEq, Repr

/-- The word that carries an instruction: a 16-bit micro-ROM word (R111) or a 32-bit word written to HCMD (R130). The two
are never confused, because they reach the encoder by different ways. -/
inductive CodeWord where
  | uop (w : Word16)
  | hcmd (w : Word32)
  deriving DecidableEq, Repr

end Sys2Proof
end

