-- ==== Sys2Proof/WellFormed.lean ====
section
/-! DEFINITION. Which instructions have an encoding. Every operand is a bit field of its exact width, so only the two fields
with a reserved value need a check: FLG (R113) and CH (R114). -/

namespace Sys2Proof

/-- The instruction has an encoding: FLG is not 3 (R113) and CH is not 3 (R114). -/
def Instr.wellFormed : Instr → Bool
  | .waitf flg => flg != 3#2
  | .srcld ch => ch != 3#2
  | .nop | .tcfg | .trst | .ten | .tdis | .masks | .pwh | .pwl | .cli | .rsi => true
  | .wsel | .ldbits _ | .shl | .bnz _ | .call _ | .ret => true
  | .srcpd | .srcsd | .srcadv | .srchas | .bf _ | .jmp _ | .bnt _ => true
  | .dlrst | .dlchk | .pgwait | .pgmark | .endok | .endab => true
  | .initCmd | .showCmd | .clearCmd _ => true

end Sys2Proof
end

