-- ==== Sys2Proof/Decode.lean ====
section
/-! DEFINITION. The decoder (R110 to R132, R140), total on every word and rejecting by name, then the encoder, written from
the same tables. -/

namespace Sys2Proof

/-- Why a word does not decode. For a micro-op word each of these raises ILLEGAL_UOP (R125, R405); for a host command word
each of these makes the word reserved (R132). -/
inductive Reject where
  /-- OPC is not in the table of R120 (R140). -/
  | reservedOpcode
  /-- An ARG bit the format requires to be 0 is 1 (R112 to R115). -/
  | nonzeroArg
  /-- FLG = 3 (R113). -/
  | reservedFlag
  /-- CH = 3 (R114). -/
  | reservedChannel
  /-- OP of a host command is 0x0 or 0x4 to 0xF (R132). -/
  | reservedCommand
  /-- Bits [7:4] of a host command are not 0 (R132). -/
  | reservedCommandBits
  /-- COUNT of INIT or SHOW is not 0 (R132). -/
  | nonzeroCount
  deriving DecidableEq, Repr

/-- OPC, bits [15:10] of a micro-op word (R111). -/
def opcField (w : Word16) : BitVec 6 := w.extractLsb' 10 6

/-- ARG, bits [9:0] of a micro-op word (R111). -/
def argField (w : Word16) : BitVec 10 := w.extractLsb' 0 10

/-- Format U0: ARG must be 0 (R112). -/
def decodeU0 (arg : BitVec 10) (i : Instr) : Except Reject Instr :=
  if arg = 0#10 then .ok i else .error .nonzeroArg

/-- Format UF: ARG[9:2] must be 0 and FLG = ARG[1:0] is not 3 (R113). -/
def decodeUF (arg : BitVec 10) (mk : BitVec 2 → Instr) : Except Reject Instr :=
  if arg.extractLsb' 2 8 = 0#8 then
    if arg.extractLsb' 0 2 = 3#2 then .error .reservedFlag else .ok (mk (arg.extractLsb' 0 2))
  else .error .nonzeroArg

/-- Format UC: ARG[9:2] must be 0 and CH = ARG[1:0] is not 3 (R114). -/
def decodeUC (arg : BitVec 10) (mk : BitVec 2 → Instr) : Except Reject Instr :=
  if arg.extractLsb' 2 8 = 0#8 then
    if arg.extractLsb' 0 2 = 3#2 then .error .reservedChannel else .ok (mk (arg.extractLsb' 0 2))
  else .error .nonzeroArg

/-- Format UI: ARG[9:8] must be 0, IMM = ARG[7:0] (R115). -/
def decodeUI (arg : BitVec 10) (mk : BitVec 8 → Instr) : Except Reject Instr :=
  if arg.extractLsb' 8 2 = 0#2 then .ok (mk (arg.extractLsb' 0 8)) else .error .nonzeroArg

/-- Format UT: TGT = ARG, every value legal (R116). -/
def decodeUT (arg : BitVec 10) (mk : UAddr → Instr) : Except Reject Instr :=
  .ok (mk arg)

/-- The micro-op decoder: the opcode map of R120 under the conditions of R125. -/
def decodeUop (w : Word16) : Except Reject Instr :=
  match (opcField w).toNat with
  | 0x00 => decodeU0 (argField w) .nop
  | 0x01 => decodeU0 (argField w) .tcfg
  | 0x02 => decodeU0 (argField w) .trst
  | 0x03 => decodeU0 (argField w) .ten
  | 0x04 => decodeU0 (argField w) .tdis
  | 0x05 => decodeUF (argField w) .waitf
  | 0x06 => decodeU0 (argField w) .masks
  | 0x07 => decodeU0 (argField w) .pwh
  | 0x08 => decodeU0 (argField w) .pwl
  | 0x09 => decodeU0 (argField w) .cli
  | 0x0A => decodeU0 (argField w) .rsi
  | 0x10 => decodeU0 (argField w) .wsel
  | 0x11 => decodeUI (argField w) .ldbits
  | 0x12 => decodeU0 (argField w) .shl
  | 0x13 => decodeUT (argField w) .bnz
  | 0x14 => decodeUT (argField w) .call
  | 0x15 => decodeU0 (argField w) .ret
  | 0x20 => decodeU0 (argField w) .srcpd
  | 0x21 => decodeU0 (argField w) .srcsd
  | 0x22 => decodeUC (argField w) .srcld
  | 0x23 => decodeU0 (argField w) .srcadv
  | 0x24 => decodeU0 (argField w) .srchas
  | 0x25 => decodeUT (argField w) .bf
  | 0x26 => decodeUT (argField w) .jmp
  | 0x27 => decodeUT (argField w) .bnt
  | 0x28 => decodeU0 (argField w) .dlrst
  | 0x29 => decodeU0 (argField w) .dlchk
  | 0x2A => decodeU0 (argField w) .pgwait
  | 0x2B => decodeU0 (argField w) .pgmark
  | 0x2C => decodeU0 (argField w) .endok
  | 0x2D => decodeU0 (argField w) .endab
  | _ => .error .reservedOpcode

/-- OP, bits [3:0] of a host command word (R130). -/
def opField (w : Word32) : BitVec 4 := w.extractLsb' 0 4

/-- The reserved bits [7:4] of a host command word (R130). -/
def rsvField (w : Word32) : BitVec 4 := w.extractLsb' 4 4

/-- COUNT, bits [31:8] of a host command word (R130). -/
def countField (w : Word32) : BitVec 24 := w.extractLsb' 8 24

/-- A command without a count: COUNT must be 0 (R132). -/
def decodeNoCount (count : BitVec 24) (i : Instr) : Except Reject Instr :=
  if count = 0#24 then .ok i else .error .nonzeroCount

/-- The host command decoder (R131, R132). -/
def decodeHcmd (w : Word32) : Except Reject Instr :=
  if rsvField w = 0#4 then
    match (opField w).toNat with
    | 0x1 => decodeNoCount (countField w) .initCmd
    | 0x2 => decodeNoCount (countField w) .showCmd
    | 0x3 => .ok (.clearCmd (countField w))
    | _ => .error .reservedCommand
  else .error .reservedCommandBits

/-- The decoder of both kinds of code word. -/
def decode : CodeWord → Except Reject Instr
  | .uop w => decodeUop w
  | .hcmd w => decodeHcmd w

/-! The encoder. -/

/-- The micro-op word with opcode `opc` and argument `arg`, `(OPC << 10) | ARG` (R111, R120). -/
def uopWord (opc : BitVec 6) (arg : BitVec 10) : CodeWord := .uop (opc ++ arg)

/-- The host command word with COUNT and OP, its reserved bits 0 (R130). -/
def hcmdWord (count : BitVec 24) (op : BitVec 4) : CodeWord := .hcmd (count ++ 0#4 ++ op)

/-- The code word of an instruction (R120, R131). -/
def encode : Instr → CodeWord
  | .nop => uopWord 0x00#6 0#10
  | .tcfg => uopWord 0x01#6 0#10
  | .trst => uopWord 0x02#6 0#10
  | .ten => uopWord 0x03#6 0#10
  | .tdis => uopWord 0x04#6 0#10
  | .waitf flg => uopWord 0x05#6 (0#8 ++ flg)
  | .masks => uopWord 0x06#6 0#10
  | .pwh => uopWord 0x07#6 0#10
  | .pwl => uopWord 0x08#6 0#10
  | .cli => uopWord 0x09#6 0#10
  | .rsi => uopWord 0x0A#6 0#10
  | .wsel => uopWord 0x10#6 0#10
  | .ldbits n => uopWord 0x11#6 (0#2 ++ n)
  | .shl => uopWord 0x12#6 0#10
  | .bnz tgt => uopWord 0x13#6 tgt
  | .call tgt => uopWord 0x14#6 tgt
  | .ret => uopWord 0x15#6 0#10
  | .srcpd => uopWord 0x20#6 0#10
  | .srcsd => uopWord 0x21#6 0#10
  | .srcld ch => uopWord 0x22#6 (0#8 ++ ch)
  | .srcadv => uopWord 0x23#6 0#10
  | .srchas => uopWord 0x24#6 0#10
  | .bf tgt => uopWord 0x25#6 tgt
  | .jmp tgt => uopWord 0x26#6 tgt
  | .bnt tgt => uopWord 0x27#6 tgt
  | .dlrst => uopWord 0x28#6 0#10
  | .dlchk => uopWord 0x29#6 0#10
  | .pgwait => uopWord 0x2A#6 0#10
  | .pgmark => uopWord 0x2B#6 0#10
  | .endok => uopWord 0x2C#6 0#10
  | .endab => uopWord 0x2D#6 0#10
  | .initCmd => hcmdWord 0#24 0x1#4
  | .showCmd => hcmdWord 0#24 0x2#4
  | .clearCmd count => hcmdWord count 0x3#4

/-- The code word an opcode-table row stands for: a row of 16 bits is a micro-ROM word, a longer one a host command word
(log 20). -/
def tableCodeWord (nbits w : Nat) : CodeWord :=
  if nbits ≤ 16 then .uop (BitVec.ofNat 16 w) else .hcmd (BitVec.ofNat 32 w)

/-- The instruction the decoder reads from the table word `w` of `nbits` bits, `none` where it rejects. -/
def decodeTableWord (nbits w : Nat) : Option Instr :=
  (decode (tableCodeWord nbits w)).toOption

end Sys2Proof
end

