-- ==== Sys2Proof/Config.lean ====
section
/-! DEFINITION. What fixes an instance of the encoder (the parameters of R9), the pixel source as the sequencer sees it
(R330), and the free values: what the spec leaves to the source's answer. -/

namespace Sys2Proof

/-- The parameters of an instance (R9 to R14). They are fixed for the life of the instance: State carries them in a field
that no step writes (log 1). NBITS, PER_CFG and PINMASK are derived from them in Machine/Ops.lean. -/
structure Params where
  /-- T1, ticks from the start of a slot to the first match (R10). -/
  t1 : Nat
  /-- T2, ticks from the first to the second match (R10). -/
  t2 : Nat
  /-- T3, ticks from the second match to the period's end (R10). -/
  t3 : Nat
  /-- XTRA, the extra bits per byte (R11). -/
  xtra : Nat
  /-- CNT_W, the width of the counter, period and compare registers (R12). -/
  cntW : Nat
  /-- PORT_W, the width of the port (R12). -/
  portW : Nat
  /-- PIN, the index of the output pin (R12). -/
  pin : Nat
  /-- MIN_GAP, in ticks (R13). -/
  minGap : Nat
  /-- INT_TOLERANT (R7, R13). -/
  intTolerant : Bool
  /-- ABORT_THRESHOLD, in ticks (R13). -/
  abortThreshold : Nat
  /-- LAT_MAX, the schedule's bound in ticks (R14, R412). -/
  latMax : Nat
  /-- The value of the predicate PROTO_OK at this instance's T1, T2 and T3 (R10, log 3). -/
  protoOk : Bool
  /-- PORT_INIT, the port at reset (R62). -/
  portInit : PortWord
  /-- IE_INIT, the interrupt enable at reset (R62). -/
  ieInit : Bool
  deriving DecidableEq, Repr

/-- The example instance EX of spec/95_test_vectors.md section 0. DESIGN CHOICE: it is the instance at which State.reset
stands (log 2, unsafe: a statement about State.reset alone speaks of this instance). -/
def Params.EX : Params where
  t1 := 3
  t2 := 4
  t3 := 3
  xtra := 0
  cntW := 8
  portW := 8
  pin := 0
  minGap := 50
  intTolerant := false
  abortThreshold := 7
  latMax := 0
  protoOk := true
  portInit := 0x00
  ieInit := true

/-- A call of the sequencer to the pixel source (R330). Each call is one event (R95). -/
inductive SrcCall where
  | preDitherStep
  | stepDithering
  | loadChannel (ch : BitVec 2)
  | advanceAndLoadChannel0
  | hasMore (n : Nat)
  deriving DecidableEq, Repr

/-- One pixel of RawSource (R332): the bytes of its three channels. -/
structure Pixel where
  ch0 : Byte
  ch1 : Byte
  ch2 : Byte
  deriving DecidableEq, Repr

/-- FREE VALUE (log 8): the byte the host-supplied source answers where nothing in the state says which (R330: an answer
may depend on the call and on every earlier call; R334: any byte past the last pixel). Applied to the calls made so far,
the present one last. -/
opaque Config.freeSrcByte : List SrcCall → Byte

/-- FREE VALUE (log 8): the host-supplied source's answer to hasMore where nothing in the state says which (R330). -/
opaque Config.freeSrcMore : List SrcCall → Bool

end Sys2Proof
end

