-- ==== Sys2Proof/Machine/MicroRom.lean ====
section
/-! DEFINITION. The micro-ROM (R81(b), R98): 1024 words of 16 bits, held as the list of its words that are not the filler,
by rising address. A word no entry lists reads as 0xFFFF (R140, R290). The ROM is addressed by whole words and no access
sees a byte order (R85, R86), so a cell is a word and not a byte (log 7). -/

namespace Sys2Proof.Machine

/-- A ROM image in canonical form: (address, word), addresses strictly rising, no word equal to the filler. -/
abbrev Rom := List (Nat × Word16)

/-- The word of every address the listing leaves out (R140, R290). -/
def Rom.filler : Word16 := 0xFFFF#16

/-- The word at a ROM address: the listed one, else the filler. -/
def Rom.readAt : Rom → Nat → Word16
  | [], _ => Rom.filler
  | (b, v) :: r, a => if a = b then v else Rom.readAt r a

/-- Instruction fetch: one whole word at a micro-address, every address legal (R49, R86). -/
def Rom.fetch (r : Rom) (a : UAddr) : Word16 := Rom.readAt r a.toNat

/-- The image with one word replaced. No agent of the machine writes the ROM (R98): this builds test ROM images (R482). -/
def Rom.write : Rom → Nat → Word16 → Rom
  | [], a, w => if w = Rom.filler then [] else [(a, w)]
  | (b, v) :: r, a, w =>
    if a < b then (if w = Rom.filler then (b, v) :: r else (a, w) :: (b, v) :: r)
    else if a = b then (if w = Rom.filler then r else (a, w) :: r)
    else (b, v) :: Rom.write r a w

/-- Every address of the image is at least `lo`, they rise strictly, all are ROM addresses, and no word is the filler. -/
def Rom.wfFrom : Nat → Rom → Bool
  | _, [] => true
  | lo, (b, v) :: r => decide (lo ≤ b) && decide (b < 1024) && decide (v ≠ Rom.filler) && Rom.wfFrom (b + 1) r

/-- The image is in canonical form. -/
def Rom.wf (r : Rom) : Bool := Rom.wfFrom 0 r

/-- The image of a list of words placed from address `a` up. -/
def Rom.placeFrom : Nat → List Word16 → Rom
  | _, [] => []
  | a, w :: ws => if w = Rom.filler then Rom.placeFrom (a + 1) ws else (a, w) :: Rom.placeFrom (a + 1) ws

/-- A test ROM image: a list of words from address 0x000, every later word the filler (R482). -/
def Rom.ofWords (ws : List Word16) : Rom := Rom.placeFrom 0 ws

/-- The words 0x000 to 0x020 of the listing of R290: the frame driver. -/
def Rom.frameDriverWords : List Word16 :=
  [0xA800, 0x1800, 0x2000, 0x8000, 0x8800, 0x2400, 0x0400, 0x0800,
   0x0C00, 0xA000, 0x9000, 0x9419, 0x8400, 0x5021, 0x8801, 0x5021,
   0x8802, 0x5021, 0x8C00, 0x9C18, 0x2800, 0x2400, 0xA400, 0x941D,
   0x980A, 0x1000, 0x2800, 0xAC00, 0xB000, 0x1000, 0x2800, 0xAC00,
   0xB400]

/-- The words 0x021 to 0x029 of the listing of R290: the byte walker. Word 0x021 carries the instance's NBITS. -/
def Rom.byteWalkerWords (nbits : Nat) : List Word16 :=
  [0x4400 ||| BitVec.ofNat 16 nbits, 0x1400, 0x0800, 0x1C00, 0x4000, 0x2000, 0x4800, 0x4C22,
   0x5400]

/-- The micro-ROM of a conforming instance (R290). -/
def Rom.reference (nbits : Nat) : Rom :=
  Rom.ofWords (Rom.frameDriverWords ++ Rom.byteWalkerWords nbits)

end Sys2Proof.Machine
end

