-- ==== Sys2Proof/Machine/State.lean ====
section
/-! DEFINITION. The state of the encoder (R30 to R63), as plain data, its stops, and the state after reset (R62). -/

namespace Sys2Proof.Machine

/-- Why the machine stops with a fault: never. The CPE's own faults (R402) are next states with SEQ_STATE = FAULT, and a
hang (R406) is an endless run of ticks, so this type has no constructor. -/
inductive Fault where
  deriving DecidableEq, Repr

/-- Why a step has no meaning. -/
inductive Refusal where
  /-- Raised by exec alone, for an instruction with no meaning yet. Safe. No arm of this model raises it. -/
  | notModelled (mnemonic : String)
  /-- Raised by the host's turn, for a register access narrower than a 32-bit word: R86 tells a model to refuse it. Safe
  (log 15). -/
  | narrowHostAccess
  deriving DecidableEq, Repr

/-- The timer sub-block (R31 to R36). The four counting registers are CNT_W bits wide, held as natural numbers (R15,
log 4). PRESC and MODE are hardwired (R37, R38) and stand in the register read. -/
structure Timer where
  cnt : Nat
  per : Nat
  cmpa : Nat
  cmpb : Nat
  ovf : Bool
  ma : Bool
  mb : Bool
  en : Bool
  deriving DecidableEq, Repr

/-- The per-frame sequencer registers (R41 to R48). `none` is the spec's state 'unwritten' (R44). -/
structure SeqRegs where
  b : Option Byte
  i : Option Byte
  f : Option Bool
  hi : Option PortWord
  lo : Option PortWord
  lr : Option UAddr
  d : Option Nat
  sie : Option Bool
  deriving DecidableEq, Repr

/-- All eight registers unwritten (R44). -/
def SeqRegs.unwritten : SeqRegs := ⟨none, none, none, none, none, none, none, none⟩

/-- SEQ_STATE (R51). -/
inductive SeqState where
  | idle
  | run
  | fault
  deriving DecidableEq, Repr

/-- The cause codes (R400). Codes 7 to 15 are never written. -/
inductive Cause where
  | none
  | cfgInvalid
  | notConfigured
  | deadlineAbort
  | badCommand
  | illegalUop
  | unwrittenRead
  deriving DecidableEq, Repr

/-- Run state and block status (R51 to R55). BUSY and FAULTED are functions of SEQ_STATE (R52, R54). -/
structure Status where
  seqState : SeqState
  cfgOk : Bool
  done : Bool
  cause : Cause
  deriving DecidableEq, Repr

/-- SRCSEL (R58): the host-supplied source, or the built-in source of n zero pixels. -/
inductive SrcSel where
  | host
  | zero (n : Nat)
  deriving DecidableEq, Repr

/-- The width of a host register access (R86). -/
inductive AccessWidth where
  | byte
  | half
  | word
  deriving DecidableEq, Repr

/-- One register access of the host (R50, R310). -/
inductive HostAccess where
  | read (w : AccessWidth) (idx : BitVec 4)
  | write (w : AccessWidth) (idx : BitVec 4) (v : Word32)
  deriving DecidableEq, Repr

/-- The state of the host-supplied pixel source, which is an agent outside the CPE (R58, R330): an oracle whose next
answers are queued, or the reference source RawSource with its cursor (R332). -/
inductive HostSource where
  | oracle (bytes : List Byte) (more : List Bool)
  | raw (pixels : List Pixel) (cursor : Nat)
  deriving DecidableEq, Repr

/-- A choice of the schedule: which agent is offered the next step (R8, R93, R410, R450; log 10). -/
inductive Turn where
  /-- The choice of the ideal schedule (R14). -/
  | auto
  /-- The timer ticks (R150). -/
  | tick
  /-- The sequencer steps, or polls where its micro-op is blocked (R110, R17). -/
  | seq
  /-- The host makes its next register access (R310). -/
  | host
  /-- The host prepares its pixel source (R338, R340). -/
  | prepare (src : HostSource)
  /-- The interrupt environment preempts the sequencer for d ticks (R410). -/
  | preempt (d : Nat)
  /-- The platform resets the CPE (R450). -/
  | reset
  deriving DecidableEq, Repr

/-- The environment's inputs and observations: the MODEL's own fields, none a register of the CPE (R30, R59). -/
structure Env where
  /-- The choices of the schedule still to come; when there are none, the ideal schedule (log 10). -/
  turns : List Turn
  /-- The register accesses the host will make, in order (R310). -/
  hostQueue : List HostAccess
  /-- The host-supplied pixel source (R330). -/
  hostSource : HostSource
  /-- The source calls made so far, in order (R95). -/
  srcCalls : List SrcCall
  /-- What the host's register reads returned, in order (R50). -/
  hostReads : List (BitVec 4 × Word32)
  /-- Ticks since the sequencer became enabled, preempted ticks left out (R412). -/
  lat : Nat
  /-- Ticks left of the preemption in progress (R410). -/
  preempt : Nat
  deriving DecidableEq, Repr

/-- The state of the machine. -/
structure State where
  /-- The instance's parameters, which no step writes (R9, log 1). -/
  params : Params
  /-- The micro-ROM, which no step writes (R98). -/
  rom : Rom
  timer : Timer
  /-- PORT (R39). -/
  port : PortWord
  regs : SeqRegs
  /-- The micro-program counter (R49). -/
  upc : UAddr
  status : Status
  /-- LAST_MARK; `none` is NEVER (R56). -/
  lastMark : Option Nat
  /-- The system interrupt enable (R57); no step stands for the host system's own writes of it (log 23). -/
  ie : Bool
  srcSel : SrcSel
  /-- The cursor of the ZERO source (R336). -/
  zeroCursor : Nat
  /-- The output trace (R60). -/
  trace : List (Nat × PortWord)
  /-- Global time in ticks (R61). -/
  t : Nat
  env : Env
  deriving DecidableEq, Repr

/-- The outcome of a step of this machine. -/
abbrev Result := Host.Outcome State Fault Refusal

/-- The timer after reset (R62). -/
def Timer.reset : Timer := ⟨0, 0, 0, 0, false, false, false, false⟩

/-- The run state and block status after reset (R62). -/
def Status.reset : Status := ⟨.idle, false, false, .none⟩

/-- The environment before anything is placed in it: no choice of the schedule pending, no host access, no queued answer
(log 8, 10, 18). -/
def Env.empty : Env := ⟨[], [], .oracle [] [], [], [], 0, 0⟩

/-- The state after the reset at t = 0 (R62, R450) of the instance with parameters `p`, with the micro-ROM of R290. The
ZERO cursor's 0 is a DESIGN CHOICE (log 9). -/
def State.resetOf (p : Params) : State where
  params := p
  rom := Rom.reference (8 + p.xtra)
  timer := Timer.reset
  port := p.portInit
  regs := SeqRegs.unwritten
  upc := 0x000#10
  status := Status.reset
  lastMark := none
  ie := p.ieInit
  srcSel := .host
  zeroCursor := 0
  trace := []
  t := 0
  env := Env.empty

/-- The machine right after reset: the example instance's reset state (log 2). -/
def State.reset : State := State.resetOf Params.EX

end Sys2Proof.Machine
end

