-- ==== Sys2Proof/Machine/Ops.lean ====
section
/-! DEFINITION. The named operations over the state: derived parameters, one setter per part of the state, the micro-program
counter, the port write, the CPE's fault, the start and the end of a frame, the later reset, and the level of the line. -/

namespace Sys2Proof

/-- NBITS, the bits transmitted per byte (R11). -/
def Params.nbits (p : Params) : Nat := 8 + p.xtra

/-- PER_CFG = T1 + T2 + T3 (R10). -/
def Params.perCfg (p : Params) : Nat := p.t1 + p.t2 + p.t3

/-- The ideal duration of one pixel, 3 * NBITS * (T1 + T2 + T3) ticks (R270). -/
def Params.pixelTicks (p : Params) : Nat := 3 * p.nbits * p.perCfg

/-- The low PORT_W bits of a word (R50: a write of PORT_OUT keeps them). -/
def Params.portBits (p : Params) (v : Word32) : PortWord := BitVec.ofNat 32 (v.toNat % 2 ^ p.portW)

/-- PINMASK = 1 << PIN, reduced to PORT_W bits (R12, R15, R40). -/
def Params.pinMask (p : Params) : PortWord := p.portBits (1#32 <<< p.pin)

/-- A natural number reduced to the CNT_W bits of a timer register (R15). -/
def Params.cntBits (p : Params) (n : Nat) : Nat := n % 2 ^ p.cntW

/-- Valid, what INIT checks (R316): nonzero phases, a period that fits the counter, NBITS in range, a pin of the port, and
the protocol's tolerance. -/
def Params.valid (p : Params) : Bool :=
  decide (1 ≤ p.t1) && decide (1 ≤ p.t2) && decide (1 ≤ p.t3)
    && decide (p.perCfg ≤ 2 ^ p.cntW - 1)
    && (decide (8 ≤ p.nbits) && decide (p.nbits ≤ 255))
    && decide (p.pin < p.portW)
    && p.protoOk

namespace Machine

/-- The code of a cause (R400). -/
def Cause.code : Cause → BitVec 4
  | .none => 0
  | .cfgInvalid => 1
  | .notConfigured => 2
  | .deadlineAbort => 3
  | .badCommand => 4
  | .illegalUop => 5
  | .unwrittenRead => 6

/-- BUSY is 1 exactly while SEQ_STATE = RUN (R52). -/
def Status.busy (st : Status) : Bool := st.seqState == .run

/-- FAULTED is 1 exactly while SEQ_STATE = FAULT (R54). -/
def Status.faulted (st : Status) : Bool := st.seqState == .fault

/-! One setter per part of the state. -/

def State.setRom (s : State) (x : Rom) : State := { s with rom := x }
def State.setTimer (s : State) (x : Timer) : State := { s with timer := x }
def State.setPort (s : State) (x : PortWord) : State := { s with port := x }
def State.setRegs (s : State) (x : SeqRegs) : State := { s with regs := x }
def State.setUpc (s : State) (x : UAddr) : State := { s with upc := x }
def State.setStatus (s : State) (x : Status) : State := { s with status := x }
def State.setLastMark (s : State) (x : Option Nat) : State := { s with lastMark := x }
def State.setIe (s : State) (x : Bool) : State := { s with ie := x }
def State.setSrcSel (s : State) (x : SrcSel) : State := { s with srcSel := x }
def State.setZeroCursor (s : State) (x : Nat) : State := { s with zeroCursor := x }
def State.setTrace (s : State) (x : List (Nat × PortWord)) : State := { s with trace := x }
def State.setT (s : State) (x : Nat) : State := { s with t := x }
def State.setEnv (s : State) (x : Env) : State := { s with env := x }

/-! The micro-program counter. -/

/-- `upc <- (upc + 1) mod 1024`, the end of every micro-op without a control transfer (R18, R49). -/
def State.advance (s : State) : State := s.setUpc (s.upc + 1)

/-- `upc <- tgt`: the target is used as it stands and not checked (R116). -/
def State.jump (s : State) (tgt : UAddr) : State := s.setUpc tgt

/-- A branch: to the target where the condition holds, else to the next word. No delay slot (R216, R262, R266). -/
def State.branch (s : State) (taken : Bool) (tgt : UAddr) : State :=
  if taken then s.jump tgt else s.advance

/-! The port. -/

/-- `PortWrite(v)`: PORT takes the whole value and the event (t, v) is appended to the trace, even where the value does not
change (R172, R89). -/
def State.portWrite (s : State) (v : PortWord) : State := (s.setPort v).setTrace (s.trace ++ [(s.t, v)])

/-- The events of the trace at or before time `τ`. -/
def State.eventsUpTo (s : State) (τ : Nat) : List (Nat × PortWord) := s.trace.filter fun e => e.1 ≤ τ

/-- The level of the output line at time `τ`: bit PIN of the last event at or before `τ`, of PORT_INIT where there is none
(R60). -/
def State.lineLevelAt (s : State) (τ : Nat) : Bool :=
  match (s.eventsUpTo τ).getLast? with
  | some e => e.2.getLsbD s.params.pin
  | none => s.params.portInit.getLsbD s.params.pin

/-! The CPE's fault (R402). The encoder has no trap, no vector and no return from one (R414): this is its one exception. -/

/-- `raise Fault(c)`: SEQ_STATE becomes FAULT, DONE 0, CAUSE c, and nothing else changes; upc keeps the address of the
faulting micro-op (R402). BUSY and FAULTED follow SEQ_STATE. -/
def State.raiseFault (s : State) (c : Cause) : State :=
  s.setStatus { s.status with seqState := .fault, done := false, cause := c }

/-- A micro-op that reads a sequencer register: an unwritten one raises UNWRITTEN_READ and the micro-op has no effect
(R44, R404). -/
def State.withWritten {α : Type} (s : State) (r : Option α) (k : α → Result) : Result :=
  match r with
  | none => .next (s.raiseFault .unwrittenRead)
  | some v => k v

/-! Frames. -/

/-- A micro-op that blocks until `c`: the sequencer has no step while `c` is false, so its turn is a poll that changes
nothing; when `c` is true the micro-op completes (R17, log 13). -/
def State.waitUntil (s : State) (c : Bool) : Result := if c then .next s.advance else .next s

/-- The end of a frame: IDLE, DONE and CAUSE as given, all sequencer registers unwritten (R282, R284). -/
def State.endFrame (s : State) (done : Bool) (c : Cause) : State :=
  (s.setStatus { s.status with seqState := .idle, done := done, cause := c }).setRegs SeqRegs.unwritten

/-- The start of a frame from source `src`: SRCSEL, DONE = 0, CAUSE = NONE, upc = 0x000, RUN (R318, R320). -/
def State.startFrame (s : State) (src : SrcSel) : State :=
  ((s.setSrcSel src).setStatus { s.status with seqState := .run, done := false, cause := .none }).setUpc 0x000#10

/-- SHOW and CLEAR: refused with NOT_CONFIGURED while CFG_OK = 0, and then nothing else changes (R318, R320). -/
def State.startIfConfigured (s : State) (start : State → State) : State :=
  if s.status.cfgOk then start s else s.setStatus { s.status with cause := .notConfigured }

/-- A write of HCMD while SEQ_STATE = FAULT is ignored, whatever the word (R312, R324). -/
def State.unlessFaulted (s : State) (k : State → State) : State :=
  match s.status.seqState with
  | .fault => s
  | .idle | .run => k s

/-- A reserved host command word: CAUSE <- BAD_COMMAND and nothing else, ignored while FAULT (R322, R324). -/
def State.badCommand (s : State) : State :=
  s.unlessFaulted fun s => s.setStatus { s.status with cause := .badCommand }

/-! Time and pacing. -/

/-- The pacing guard's condition: LAST_MARK = NEVER or t >= LAST_MARK + MIN_GAP (R278). -/
def State.gapElapsed (s : State) : Bool :=
  match s.lastMark with
  | none => true
  | some m => decide (m + s.params.minGap ≤ s.t)

/-! Reset. -/

/-- A reset after the first: every piece of state at its reset value, but t and the trace keep theirs, and the trace gains
(t, PORT_INIT) (R450). The instance, its ROM and the environment's pending inputs stay; no preemption is in progress and
no latency is counted (log 16). -/
def State.laterReset (s : State) : State :=
  { State.resetOf s.params with
    rom := s.rom
    t := s.t
    trace := s.trace ++ [(s.t, s.params.portInit)]
    env := { s.env with lat := 0, preempt := 0 } }

end Machine
end Sys2Proof
end

