-- ==== Sys2Proof/Machine/Flags.lean ====
section
/-! DEFINITION. Every flag computation: the tick's update of the counter and of OVF, MA and MB (R151), their clearing by
TRST (R162) and by a write of TMR_STATUS (R50), the flag WSEL selects (R210), and the two results F takes (R260, R270). -/

namespace Sys2Proof.Machine

/-- The timer update of a tick: with EN = 1 the counter moves, wrapping to 0 with OVF set where it reaches PER, and MA and
MB are set where the new count equals CMPA and CMPB; with EN = 0 everything holds (R150, R151). The flags are sticky
(R152). `w` is CNT_W. -/
def Timer.tick (tm : Timer) (w : Nat) : Timer :=
  if tm.en then
    let n := (tm.cnt + 1) % 2 ^ w
    let cnt := if n = tm.per then 0 else n
    { tm with
      cnt := cnt
      ovf := tm.ovf || decide (n = tm.per)
      ma := tm.ma || decide (cnt = tm.cmpa)
      mb := tm.mb || decide (cnt = tm.cmpb) }
  else tm

/-- TRST: the counter and all three flags to 0 (R162). -/
def Timer.restart (tm : Timer) : Timer := { tm with cnt := 0, ovf := false, ma := false, mb := false }

/-- A write of TMR_STATUS: each flag whose bit is 1 in the word is cleared (R50). -/
def Timer.clearFlags (tm : Timer) (v : Word32) : Timer :=
  { tm with
    ovf := tm.ovf && !v.getLsbD 0
    ma := tm.ma && !v.getLsbD 1
    mb := tm.mb && !v.getLsbD 2 }

/-- The match flag that ends the high pulse of the current bit: MA for a 0 in bit 7 of the byte, MB for a 1 (R204, R210). -/
def Timer.bitMatch (tm : Timer) (b : Byte) : Bool := if b.getLsbD 7 then tm.mb else tm.ma

/-- DLCHK's test: 1 is on time, 0 is behind schedule (R270). -/
def onTime (t d threshold : Nat) : Bool := decide (t ≤ d + threshold)

end Sys2Proof.Machine
end

