-- ==== Sys2Proof/Machine/Operands.lean ====
section
/-! DEFINITION. The operand forms (R113 to R117): FLG, CH, IMM and TGT. No micro-op takes a register operand. IMM and TGT
are used as they stand; FLG and CH select. -/

namespace Sys2Proof.Machine

/-- FLAG(f): 0 is OVF, 1 is MA, 2 is MB (R113, R168). FLG = 3 is no flag. -/
def Timer.flag (tm : Timer) (flg : BitVec 2) : Option Bool :=
  match flg.toNat with
  | 0 => some tm.ovf
  | 1 => some tm.ma
  | 2 => some tm.mb
  | _ => none

/-- A micro-op of format UF: FLG = 3 is an illegal encoding (R113, R125, log 19). -/
def State.withFlag (s : State) (flg : BitVec 2) (k : Bool → Result) : Result :=
  match s.timer.flag flg with
  | none => .next (s.raiseFault .illegalUop)
  | some v => k v

/-- The byte of a pixel on channel 0, 1 or 2 (R114, R332). CH = 3 is no channel. -/
def channelOf (px : Pixel) (ch : BitVec 2) : Byte :=
  match ch.toNat with
  | 0 => px.ch0
  | 1 => px.ch1
  | _ => px.ch2

/-- A micro-op of format UC: CH = 3 is an illegal encoding (R114, R125, log 19). -/
def State.withChannel (s : State) (ch : BitVec 2) (k : Result) : Result :=
  if ch = 3#2 then .next (s.raiseFault .illegalUop) else k

/-- Format UI: the immediate, zero-extended to the 8 bits of I, neither scaled nor sign-extended (R115). -/
def immediate (n : BitVec 8) : Byte := n

/-- Format UT: the absolute micro-address, used as it stands (R116). -/
def target (tgt : UAddr) : UAddr := tgt

end Sys2Proof.Machine
end

