-- ==== Sys2Proof/Machine/ByteWalker.lean ====
section
/-! DEFINITION. The micro-ops of the byte walker (41_byte_walker.md). -/

namespace Sys2Proof.Machine

/-- WSEL (R210): a poll of MA where bit 7 of B is 0, of MB where it is 1; neither flag is cleared. -/
def execWsel (s : State) : Result := s.withWritten s.regs.b fun b => s.waitUntil (s.timer.bitMatch b)

/-- LDBITS n (R212). -/
def execLdbits (n : BitVec 8) (s : State) : Result :=
  .next (s.setRegs { s.regs with i := some (immediate n) }).advance

/-- SHL (R214): B <- (B << 1) mod 256, I <- (I - 1) mod 256. -/
def execShl (s : State) : Result :=
  s.withWritten s.regs.b fun b => s.withWritten s.regs.i fun i =>
    .next (s.setRegs { s.regs with b := some (b <<< 1), i := some (i - 1) }).advance

/-- BNZ tgt (R216). -/
def execBnz (tgt : UAddr) (s : State) : Result :=
  s.withWritten s.regs.i fun i => .next (s.branch (i != 0#8) (target tgt))

/-- CALL tgt (R218): LR <- (upc + 1) mod 1024, upc <- tgt. -/
def execCall (tgt : UAddr) (s : State) : Result :=
  .next ((s.setRegs { s.regs with lr := some (s.upc + 1) }).jump (target tgt))

/-- RET (R220): upc <- LR, and LR keeps its value. -/
def execRet (s : State) : Result := s.withWritten s.regs.lr fun a => .next (s.jump a)

end Sys2Proof.Machine
end

