-- ==== Sys2Proof/Machine/Source.lean ====
section
/-! DEFINITION. The pixel-source interface (R330 to R338): the five operations of the source SRCSEL names. Every call is
logged as one event (R95). -/

namespace Sys2Proof.Machine

/-- The call is one event (R95). -/
def State.logCall (s : State) (c : SrcCall) : State :=
  s.setEnv { s.env with srcCalls := s.env.srcCalls ++ [c] }

/-- The next state of the host-supplied source. -/
def State.setHostSource (s : State) (x : HostSource) : State := s.setEnv { s.env with hostSource := x }

/-- RawSource's byte of pixel `p` on channel `ch`, any byte past the last pixel (R332, R334): a free value, applied to the
calls made so far (log 8). -/
def rawByte (pixels : List Pixel) (p : Nat) (ch : BitVec 2) (calls : List SrcCall) : Byte :=
  match pixels[p]? with
  | some px => channelOf px ch
  | none => Config.freeSrcByte calls

/-- `loadChannel(ch)`: the answered byte and the state after the call (R256, R332, R336). -/
def State.srcLoad (s : State) (ch : BitVec 2) : Byte × State :=
  let s := s.logCall (.loadChannel ch)
  match s.srcSel with
  | .zero _ => (0x00#8, s)
  | .host =>
    match s.env.hostSource with
    | .oracle (b :: bs) more => (b, s.setHostSource (.oracle bs more))
    | .oracle [] _ => (Config.freeSrcByte s.env.srcCalls, s)
    | .raw pixels p => (rawByte pixels p ch s.env.srcCalls, s)

/-- `advanceAndLoadChannel0()`: the source moves to its next pixel and answers that pixel's channel 0 (R258, R332, R336). -/
def State.srcAdvance (s : State) : Byte × State :=
  let s := s.logCall .advanceAndLoadChannel0
  match s.srcSel with
  | .zero _ => (0x00#8, s.setZeroCursor (s.zeroCursor + 1))
  | .host =>
    match s.env.hostSource with
    | .oracle (b :: bs) more => (b, s.setHostSource (.oracle bs more))
    | .oracle [] _ => (Config.freeSrcByte s.env.srcCalls, s)
    | .raw pixels p => (rawByte pixels (p + 1) 0#2 s.env.srcCalls, s.setHostSource (.raw pixels (p + 1)))

/-- `hasMore(n)`: whether pixels remain (R260, R332, R336). -/
def State.srcHasMore (s : State) (n : Nat) : Bool × State :=
  let s := s.logCall (.hasMore n)
  match s.srcSel with
  | .zero k => (decide (s.zeroCursor < k), s)
  | .host =>
    match s.env.hostSource with
    | .oracle bytes (m :: ms) => (m, s.setHostSource (.oracle bytes ms))
    | .oracle _ [] => (Config.freeSrcMore s.env.srcCalls, s)
    | .raw pixels p => (decide (p < pixels.length), s)

/-- `preDitherStep()`: no answer; what it changes in the source shows only in later answers (R252, R332). -/
def State.srcPreDither (s : State) : State := s.logCall .preDitherStep

/-- `stepDithering()`: as preDitherStep (R254, R332). -/
def State.srcStepDither (s : State) : State := s.logCall .stepDithering

end Sys2Proof.Machine
end

