-- ==== Sys2Proof/Machine/FrameDriver.lean ====
section
/-! DEFINITION. The micro-ops of the frame driver (42_frame_driver.md). -/

namespace Sys2Proof.Machine

/-- SRCPD (R252). -/
def execSrcpd (s : State) : Result := .next s.srcPreDither.advance

/-- SRCSD (R254). -/
def execSrcsd (s : State) : Result := .next s.srcStepDither.advance

/-- SRCLD ch (R256): B <- Src.loadChannel(ch). -/
def execSrcld (ch : BitVec 2) (s : State) : Result :=
  s.withChannel ch <|
    let (v, s') := s.srcLoad ch
    .next (s'.setRegs { s'.regs with b := some v }).advance

/-- SRCADV (R258): B <- Src.advanceAndLoadChannel0(). -/
def execSrcadv (s : State) : Result :=
  let (v, s') := s.srcAdvance
  .next (s'.setRegs { s'.regs with b := some v }).advance

/-- SRCHAS (R260): F <- Src.hasMore(1). -/
def execSrchas (s : State) : Result :=
  let (v, s') := s.srcHasMore 1
  .next (s'.setRegs { s'.regs with f := some v }).advance

/-- BF tgt (R262): taken where F = 0. -/
def execBf (tgt : UAddr) (s : State) : Result :=
  s.withWritten s.regs.f fun f => .next (s.branch (!f) (target tgt))

/-- JMP tgt (R264). -/
def execJmp (tgt : UAddr) (s : State) : Result := .next (s.jump (target tgt))

/-- BNT tgt (R266): taken where the parameter INT_TOLERANT is false. -/
def execBnt (tgt : UAddr) (s : State) : Result := .next (s.branch (!s.params.intTolerant) (target tgt))

/-- DLRST (R268): D <- t. -/
def execDlrst (s : State) : Result := .next (s.setRegs { s.regs with d := some s.t }).advance

/-- DLCHK (R270): D <- D + 3 * NBITS * (T1 + T2 + T3), then F <- (t <= D + ABORT_THRESHOLD). -/
def execDlchk (s : State) : Result :=
  s.withWritten s.regs.d fun d =>
    let d' := d + s.params.pixelTicks
    .next (s.setRegs { s.regs with d := some d', f := some (onTime s.t d' s.params.abortThreshold) }).advance

/-- PGWAIT (R278): a poll of the pacing guard's condition. -/
def execPgwait (s : State) : Result := s.waitUntil s.gapElapsed

/-- PGMARK (R280): LAST_MARK <- t. -/
def execPgmark (s : State) : Result := .next (s.setLastMark (some s.t)).advance

/-- ENDOK (R282): the frame is complete. "upc is left as it stands." -/
def execEndok (s : State) : Result := .next (s.endFrame true .none)

/-- ENDAB (R284): the frame was abandoned. R284 has no line that keeps upc, so it moves on as R18 and R49 say of every
micro-op without a control transfer. -/
def execEndab (s : State) : Result := .next (s.endFrame false .deadlineAbort).advance

end Sys2Proof.Machine
end

