-- ==== Sys2Proof/Machine/HostCommands.lean ====
section
/-! DEFINITION. The host commands (43_host_commands.md): what a write of their word to HCMD does (R312). Each is ignored
while SEQ_STATE = FAULT (R324). The host writes HCMD only while SEQ_STATE is not RUN (R310): its turn checks that
(Machine/HostAccess.lean, log 17). -/

namespace Sys2Proof.Machine

/-- INIT (R314): CFG_OK <- Valid, CAUSE <- NONE or CFG_INVALID. -/
def execInit (s : State) : Result :=
  .next <| s.unlessFaulted fun s =>
    s.setStatus { s.status with
      cfgOk := s.params.valid
      cause := if s.params.valid then .none else .cfgInvalid }

/-- SHOW (R318): a frame from the host-supplied source. -/
def execShow (s : State) : Result :=
  .next <| s.unlessFaulted fun s => s.startIfConfigured fun s => s.startFrame .host

/-- CLEAR count (R320): a frame of COUNT zero pixels, from the ZERO source with its cursor at 0 (R336). -/
def execClear (count : BitVec 24) (s : State) : Result :=
  .next <| s.unlessFaulted fun s => s.startIfConfigured fun s =>
    (s.startFrame (.zero count.toNat)).setZeroCursor 0

end Sys2Proof.Machine
end

