-- ==== Sys2Proof/Machine/TimerPort.lean ====
section
/-! DEFINITION. The timer, port and interrupt-mask micro-ops (40_timer_port.md). Each meaning is what the micro-op does when
the sequencer takes its step (R110). -/

namespace Sys2Proof.Machine

/-- NOP (R158). -/
def execNop (s : State) : Result := .next s.advance

/-- TCFG (R160): PER, CMPA and CMPB from the parameters, reduced to CNT_W bits. -/
def execTcfg (s : State) : Result :=
  let p := s.params
  .next (s.setTimer { s.timer with
    per := p.cntBits p.perCfg
    cmpa := p.cntBits p.t1
    cmpb := p.cntBits (p.t1 + p.t2) }).advance

/-- TRST (R162). -/
def execTrst (s : State) : Result := .next (s.setTimer s.timer.restart).advance

/-- TEN (R164). -/
def execTen (s : State) : Result := .next (s.setTimer { s.timer with en := true }).advance

/-- TDIS (R166). -/
def execTdis (s : State) : Result := .next (s.setTimer { s.timer with en := false }).advance

/-- WAITF f (R168): a poll of the flag, which it does not clear. -/
def execWaitf (flg : BitVec 2) (s : State) : Result := s.withFlag flg fun v => s.waitUntil v

/-- MASKS (R170): HI <- PORT | PINMASK, LO <- PORT & ~PINMASK (C2). -/
def execMasks (s : State) : Result :=
  .next (s.setRegs { s.regs with
    hi := some (s.port ||| s.params.pinMask)
    lo := some (s.port &&& ~~~s.params.pinMask) }).advance

/-- PWH (R174). -/
def execPwh (s : State) : Result := s.withWritten s.regs.hi fun v => .next (s.portWrite v).advance

/-- PWL (R176). -/
def execPwl (s : State) : Result := s.withWritten s.regs.lo fun v => .next (s.portWrite v).advance

/-- CLI (R178): SIE <- IE, IE <- 0. -/
def execCli (s : State) : Result := .next ((s.setRegs { s.regs with sie := some s.ie }).setIe false).advance

/-- RSI (R180): IE <- SIE, and SIE keeps its value. -/
def execRsi (s : State) : Result := s.withWritten s.regs.sie fun v => .next (s.setIe v).advance

end Sys2Proof.Machine
end

