-- ==== Sys2Proof/Machine/Dispatch.lean ====
section
/-! DEFINITION. The meaning of each instruction: what it does when its agent, the sequencer or the host, takes its step. -/

namespace Sys2Proof.Machine

def exec (i : Instr) (s : State) : Host.Outcome State Fault Refusal :=
  match i with
  | .nop => Sys2Proof.Machine.execNop s
  | .tcfg => Sys2Proof.Machine.execTcfg s
  | .trst => Sys2Proof.Machine.execTrst s
  | .ten => Sys2Proof.Machine.execTen s
  | .tdis => Sys2Proof.Machine.execTdis s
  | .waitf flg => Sys2Proof.Machine.execWaitf flg s
  | .masks => Sys2Proof.Machine.execMasks s
  | .pwh => Sys2Proof.Machine.execPwh s
  | .pwl => Sys2Proof.Machine.execPwl s
  | .cli => Sys2Proof.Machine.execCli s
  | .rsi => Sys2Proof.Machine.execRsi s
  | .wsel => Sys2Proof.Machine.execWsel s
  | .ldbits n => Sys2Proof.Machine.execLdbits n s
  | .shl => Sys2Proof.Machine.execShl s
  | .bnz tgt => Sys2Proof.Machine.execBnz tgt s
  | .call tgt => Sys2Proof.Machine.execCall tgt s
  | .ret => Sys2Proof.Machine.execRet s
  | .srcpd => Sys2Proof.Machine.execSrcpd s
  | .srcsd => Sys2Proof.Machine.execSrcsd s
  | .srcld ch => Sys2Proof.Machine.execSrcld ch s
  | .srcadv => Sys2Proof.Machine.execSrcadv s
  | .srchas => Sys2Proof.Machine.execSrchas s
  | .bf tgt => Sys2Proof.Machine.execBf tgt s
  | .jmp tgt => Sys2Proof.Machine.execJmp tgt s
  | .bnt tgt => Sys2Proof.Machine.execBnt tgt s
  | .dlrst => Sys2Proof.Machine.execDlrst s
  | .dlchk => Sys2Proof.Machine.execDlchk s
  | .pgwait => Sys2Proof.Machine.execPgwait s
  | .pgmark => Sys2Proof.Machine.execPgmark s
  | .endok => Sys2Proof.Machine.execEndok s
  | .endab => Sys2Proof.Machine.execEndab s
  | .initCmd => Sys2Proof.Machine.execInit s
  | .showCmd => Sys2Proof.Machine.execShow s
  | .clearCmd count => Sys2Proof.Machine.execClear count s

end Sys2Proof.Machine
end

