-- ==== Sys2Proof/Machine/HostRegs.lean ====
section
/-! DEFINITION. The host register map (R50): what a read of each index returns and what a write changes. The write of HCMD
is a command and is taken in Machine/HostAccess.lean. -/

namespace Sys2Proof

/-- BLK_CFG: INT_TOLERANT in bit 8, NBITS in bits 7:0 (R50). -/
def Params.cfgWord (p : Params) : Word32 := 0#23 ++ BitVec.ofBool p.intTolerant ++ BitVec.ofNat 8 p.nbits

namespace Machine

/-- TMR_CTRL: PRESC (00) in bits 3:2, FREERUN (1) in bit 1, EN in bit 0 (R36 to R38). -/
def Timer.ctrlWord (tm : Timer) : Word32 := 0#28 ++ 0b00#2 ++ 1#1 ++ BitVec.ofBool tm.en

/-- TMR_STATUS: MB, MA, OVF in bits 2, 1, 0 (R50). -/
def Timer.statusWord (tm : Timer) : Word32 :=
  0#29 ++ BitVec.ofBool tm.mb ++ BitVec.ofBool tm.ma ++ BitVec.ofBool tm.ovf

/-- BLK_STATUS: CAUSE in bits 7:4, then FAULTED, DONE, CFG_OK, BUSY (R50, R52 to R55). -/
def Status.word (st : Status) : Word32 :=
  0#24 ++ st.cause.code ++ BitVec.ofBool st.faulted ++ BitVec.ofBool st.done ++ BitVec.ofBool st.cfgOk
    ++ BitVec.ofBool st.busy

/-- `RegRead(idx)` (R50): free of side effects (R89). A register wider than 32 bits shows its low 32 (log 6). -/
def State.regRead (s : State) (idx : BitVec 4) : Word32 :=
  match idx.toNat with
  | 0x0 => s.timer.ctrlWord
  | 0x1 => BitVec.ofNat 32 s.timer.cnt
  | 0x2 => BitVec.ofNat 32 s.timer.per
  | 0x3 => BitVec.ofNat 32 s.timer.cmpa
  | 0x4 => BitVec.ofNat 32 s.timer.cmpb
  | 0x5 => s.timer.statusWord
  | 0x6 => s.port
  | 0x7 => s.params.pinMask
  | 0x8 => s.status.word
  | 0xA => s.params.cfgWord
  | 0xB => BitVec.ofNat 32 s.params.t1
  | 0xC => BitVec.ofNat 32 s.params.t2
  | 0xD => BitVec.ofNat 32 s.params.t3
  | _ => 0#32   -- HCMD (0x9) and the reserved 0xE and 0xF read 0

/-- `RegWrite(idx, v)` of every register but HCMD (R50): a read-only or reserved index ignores it. DESIGN CHOICE (log 6): where
CNT_W is above 32, a write of TMR_PER, TMR_CMPA or TMR_CMPB clears the register's bits from 32 up. -/
def State.regWrite (s : State) (idx : BitVec 4) (v : Word32) : State :=
  match idx.toNat with
  | 0x0 => s.setTimer { s.timer with en := v.getLsbD 0 }
  | 0x2 => s.setTimer { s.timer with per := s.params.cntBits v.toNat }
  | 0x3 => s.setTimer { s.timer with cmpa := s.params.cntBits v.toNat }
  | 0x4 => s.setTimer { s.timer with cmpb := s.params.cntBits v.toNat }
  | 0x5 => s.setTimer (s.timer.clearFlags v)
  | 0x6 => s.portWrite (s.params.portBits v)
  | _ => s

end Machine
end Sys2Proof
end

