-- ==== Sys2Proof/Machine/HostAccess.lean ====
section
/-! DEFINITION. One register access of the host (R50, R86, R310), with the dispatch of HCMD words (R312). -/

namespace Sys2Proof.Machine

/-- HCMD's register index (R50). -/
def hcmdIndex : BitVec 4 := 0x9#4

/-- A write of HCMD (R312): a command, or a reserved word. -/
def State.hostCommand (s : State) (v : Word32) : Result :=
  match decodeHcmd v with
  | .ok i => exec i s
  | .error _ => .next s.badCommand

/-- A host register access. The host learns what a read returned. An access narrower than a word is refused (R86). -/
def State.hostAccess (s : State) (a : HostAccess) : Result :=
  match a with
  | .read .word idx => .next (s.setEnv { s.env with hostReads := s.env.hostReads ++ [(idx, s.regRead idx)] })
  | .write .word idx v => if idx = hcmdIndex then s.hostCommand v else .next (s.regWrite idx v)
  | .read .byte _ | .read .half _ | .write .byte _ _ | .write .half _ _ => .refused .narrowHostAccess

/-- The host's turn: it makes the next of its accesses (R310). -/
def State.hostStep (s : State) : Result :=
  match s.env.hostQueue with
  | [] => .next s
  | a :: rest => (s.setEnv { s.env with hostQueue := rest }).hostAccess a

end Sys2Proof.Machine
end

