-- ==== Sys2Proof/Machine/Schedule.lean ====
section
/-! DEFINITION. Who moves next, and each agent's step: the tick (R150), the sequencer step (R110), the host's step, the
preemption (R410) and the choice of the schedule. The bound S(L) of R412 is in Machine/Runs.lean. -/

namespace Sys2Proof.Machine

/-! When the sequencer can complete a micro-op. -/

/-- The micro-op's block condition holds: it has no step now (R17, R168, R210, R278). Only WAITF, WSEL and PGWAIT block. A
WSEL that reads an unwritten B faults and does not block. -/
def State.blockedOn (s : State) : Instr → Bool
  | .waitf flg => s.timer.flag flg == some false
  | .wsel => match s.regs.b with
    | none => false
    | some b => !s.timer.bitMatch b
  | .pgwait => !s.gapElapsed
  | .nop | .tcfg | .trst | .ten | .tdis | .masks | .pwh | .pwl | .cli | .rsi => false
  | .ldbits _ | .shl | .bnz _ | .call _ | .ret => false
  | .srcpd | .srcsd | .srcld _ | .srcadv | .srchas | .bf _ | .jmp _ | .bnt _ => false
  | .dlrst | .dlchk | .pgmark | .endok | .endab => false
  | .initCmd | .showCmd | .clearCmd _ => false

/-- The word at upc (R110). -/
def State.fetched (s : State) : Word16 := s.rom.fetch s.upc

/-- The sequencer is enabled: RUN, and the micro-op at upc can complete (R412). An illegal word completes by faulting. -/
def State.enabled (s : State) : Bool :=
  (s.status.seqState == .run) &&
    match decodeUop s.fetched with
    | .ok i => !s.blockedOn i
    | .error _ => true

/-! The agents' steps. -/

/-- The ticks counted against LAT_MAX after one more tick: those since the sequencer became enabled, preempted ones left
out (R412, log 12). -/
def State.latAfterTick (s : State) : Nat :=
  if s.env.preempt = 0 then (if s.enabled then s.env.lat + 1 else 0) else s.env.lat

/-- The tick: t goes up by 1 and, with EN = 1, the counter and flags are updated (R150, R151). A preemption in progress has
one tick less to go (R410). -/
def State.tick (s : State) : State :=
  ((s.setTimer (s.timer.tick s.params.cntW)).setT (s.t + 1)).setEnv
    { s.env with lat := s.latAfterTick, preempt := s.env.preempt - 1 }

/-- The count of R412 starts anew at the completion of a step. -/
def State.clearLat (s : State) : State := s.setEnv { s.env with lat := 0 }

/-- The sequencer step (R110): fetch, decode, execute; a word that does not decode raises ILLEGAL_UOP with upc unchanged
(R125, R405). -/
def State.seqStep (s : State) : Result :=
  match decodeUop s.fetched with
  | .ok i => exec i s.clearLat
  | .error _ => .next (s.clearLat.raiseFault .illegalUop)

/-! The schedule. -/

/-- Whether the agent of a turn can take it: the timer always (R150; S(L) is a condition on runs, Machine/Runs.lean), the
sequencer while RUN and not preempted, the host and its preparation of the source while not RUN (R310), a preemption while
RUN and IE = 1 (R410), a reset always (R450). -/
def State.canTake (s : State) : Turn → Bool
  | .auto => true
  | .tick => true
  | .seq => (s.status.seqState == .run) && decide (s.env.preempt = 0)
  | .host => (s.status.seqState != .run) && !s.env.hostQueue.isEmpty
  | .prepare _ => s.status.seqState != .run
  | .preempt _ => (s.status.seqState == .run) && s.ie && decide (s.env.preempt = 0)
  | .reset => true

/-- The choice of the ideal schedule (R14): the sequencer where it is enabled and not preempted, else the host where it has
an access to make, else the timer (log 10). -/
def State.autoTurn (s : State) : Turn :=
  if s.enabled && s.canTake .seq then .seq else if s.canTake .host then .host else .tick

/-- The turn offered next: the first pending choice, the ideal schedule's where none is pending. -/
def State.nextTurn (s : State) : Turn :=
  match s.env.turns with
  | [] | .auto :: _ => s.autoTurn
  | .tick :: _ => .tick
  | .seq :: _ => .seq
  | .host :: _ => .host
  | .prepare src :: _ => .prepare src
  | .preempt d :: _ => .preempt d
  | .reset :: _ => .reset

/-- The pending choices without the first. -/
def State.popTurn (s : State) : State := s.setEnv { s.env with turns := s.env.turns.tail }

/-- The agent of a turn takes it. DESIGN CHOICE (log 23): no turn lets the host system change IE. The spec says that IE belongs
to the host system (R57) and gives no step by which it writes IE, so only CLI, RSI and reset do. -/
def State.act (s : State) : Turn → Result
  | .auto => .next s
  | .tick => .next s.tick
  | .seq => s.seqStep
  | .host => s.hostStep
  | .prepare src => .next (s.setHostSource src)
  | .preempt d => .next (s.setEnv { s.env with preempt := d })
  | .reset => .next s.laterReset

/-- A turn: taken where its agent can take it, else passed, and then nothing but the pending choice is gone (log 11). -/
def State.takeTurn (s : State) (x : Turn) : Result :=
  if s.canTake x then s.act x else .next s

end Sys2Proof.Machine
end

