-- ==== Sys2Proof/Machine/Step.lean ====
section
/-! DEFINITION. One step of the machine: the schedule offers one agent its turn (R92, R93). -/

namespace Sys2Proof.Machine

/-- One step: the next choice of the schedule is taken. -/
def step (s : State) : Host.Outcome State Fault Refusal :=
  s.popTurn.takeTurn s.nextTurn

/-- `s` with one more pending turn in front where the schedule would not offer it by itself. -/
def State.ensureTurn (s : State) (x : Turn) : State :=
  if s.nextTurn = x then s else s.setEnv { s.env with turns := x :: s.env.turns }

/-- A micro-op word where the sequencer fetches next: in the ROM at upc, with the sequencer running and not preempted
(R110, R482; log 18). -/
def State.withUop (s : State) (w : Word16) : State :=
  (((s.setRom (s.rom.write s.upc.toNat w)).setStatus { s.status with seqState := .run }).setEnv
    { s.env with preempt := 0 }).ensureTurn .seq

/-- A host command word as the host's next access: a write of HCMD, with no frame running (R310, R312; log 18). -/
def State.withHcmd (s : State) (w : Word32) : State :=
  ((s.setStatus { s.status with seqState := if s.status.seqState = .run then .idle else s.status.seqState }).setEnv
    { s.env with hostQueue := .write .word hcmdIndex w :: s.env.hostQueue }).ensureTurn .host

/-- `s` with the table word `w` of `nbits` bits stored where the next step takes its instruction from. -/
def State.withFetchWord (s : State) (nbits w : Nat) : State :=
  match tableCodeWord nbits w with
  | .uop u => s.withUop u
  | .hcmd h => s.withHcmd h

end Sys2Proof.Machine
end

