-- ==== Sys2Proof/Machine/Assembly.lean ====
section
/-! DEFINITION. The spec's assembly syntax (R145) and its pseudo-instructions (R146): from lines of text to the words of a
test ROM image (R482), one micro-op a line. What R145 leaves open (which characters a label has, a label defined twice) is
in log 22. -/

namespace Sys2Proof.Machine

/-- A word of a source line. -/
abbrev Token := List Char

/-- Why a line or a program does not assemble. -/
inductive AsmError where
  /-- The line is not `[LABEL:] MNEMONIC [operand]` (R145). -/
  | badLine
  | unknownMnemonic
  | missingOperand
  | extraOperand
  | badOperand
  | undefinedLabel
  | duplicateLabel
  /-- More lines than the ROM has words. -/
  | tooLong
  deriving DecidableEq, Repr

/-- A line: its label, mnemonic and operand (R145). -/
structure AsmLine where
  label : Option Token
  mnemonic : Token
  operand : Option Token
  deriving DecidableEq, Repr

/-- Mnemonics and operand keywords are case-insensitive (R145). -/
def keyword (t : Token) : String := String.ofList (t.map Char.toUpper)

/-- The words of a text, split at white space. -/
def words (cs : List Char) : List Token :=
  (cs.foldr (fun c acc => if c.isWhitespace then [] :: acc else
    match acc with
    | [] => [[c]]
    | t :: ts => (c :: t) :: ts) [[]]).filter fun t => !t.isEmpty

/-- The line `[LABEL:] MNEMONIC [operand] [; comment]` (R145). DESIGN CHOICE (log 22): white space may stand between the label and
its colon. -/
def parseLine (text : String) : Except AsmError AsmLine :=
  let body := text.toList.takeWhile (· != ';')
  let hasLabel := body.contains ':'
  let labelWords := if hasLabel then words (body.takeWhile (· != ':')) else []
  let rest := words (if hasLabel then (body.dropWhile (· != ':')).drop 1 else body)
  let label : Except AsmError (Option Token) :=
    match hasLabel, labelWords with
    | false, _ => .ok none
    | true, [l] => .ok (some l)
    | true, _ => .error .badLine
  match label, rest with
  | .error e, _ => .error e
  | .ok l, [m] => .ok ⟨l, m, none⟩
  | .ok l, [m, o] => .ok ⟨l, m, some o⟩
  | .ok _, _ => .error .badLine

/-- The value of a digit in base 10 or 16. -/
def digit (base : Nat) (c : Char) : Option Nat :=
  let v :=
    if '0' ≤ c ∧ c ≤ '9' then c.toNat - 48
    else if 'A' ≤ c.toUpper ∧ c.toUpper ≤ 'F' then c.toUpper.toNat - 55
    else base
  if v < base then some v else none

/-- The number a nonempty row of digits stands for. -/
def digits (base : Nat) : Token → Option Nat
  | [] => none
  | c :: cs => (c :: cs).foldl
      (fun acc c => match acc, digit base c with
        | some a, some v => some (a * base + v)
        | _, _ => none) (some 0)

/-- A `0x` hexadecimal number (R145). -/
def hexNumber : Token → Option Nat
  | '0' :: x :: cs => if x.toUpper = 'X' then digits 16 cs else none
  | _ => none

/-- The mnemonics without an operand: format U0, and the pseudo-instructions WAITOVF, WAITMA, WAITMB and END (R111,
R146). -/
def plainMnemonics : List (String × Instr) :=
  [("NOP", .nop), ("TCFG", .tcfg), ("TRST", .trst), ("TEN", .ten), ("TDIS", .tdis), ("MASKS", .masks), ("PWH", .pwh),
   ("PWL", .pwl), ("CLI", .cli), ("RSI", .rsi), ("WSEL", .wsel), ("SHL", .shl), ("RET", .ret), ("SRCPD", .srcpd),
   ("SRCSD", .srcsd), ("SRCADV", .srcadv), ("SRCHAS", .srchas), ("DLRST", .dlrst), ("DLCHK", .dlchk),
   ("PGWAIT", .pgwait), ("PGMARK", .pgmark), ("ENDOK", .endok), ("ENDAB", .endab),
   ("WAITOVF", .waitf 0), ("WAITMA", .waitf 1), ("WAITMB", .waitf 2), ("END", .endok)]

/-- The mnemonics with a micro-address: format UT, and the pseudo-instruction B (R111, R146). DESIGN CHOICE (log 22): B takes a
`0x` micro-address too, as JMP does, where R146 gives `B label` only. -/
def targetMnemonics : List (String × (UAddr → Instr)) :=
  [("BNZ", .bnz), ("CALL", .call), ("BF", .bf), ("JMP", .jmp), ("BNT", .bnt), ("B", .jmp)]

/-- WAITF takes OVF, MA or MB (R145). -/
def flagOperand (o : Token) : Option Instr :=
  ([("OVF", .waitf 0), ("MA", .waitf 1), ("MB", .waitf 2)] : List (String × Instr)).lookup (keyword o)

/-- SRCLD takes 0, 1 or 2 (R145). -/
def channelOperand (o : Token) : Option Instr :=
  ([("0", .srcld 0), ("1", .srcld 1), ("2", .srcld 2)] : List (String × Instr)).lookup (keyword o)

/-- LDBITS takes a decimal or `0x` number from 0 to 255, or NBITS, the instance's parameter (R145). -/
def countOperand (nbits : Nat) (o : Token) : Option Instr :=
  let n := if keyword o = "NBITS" then some nbits else (hexNumber o).or (digits 10 o)
  match n with
  | some n => if n ≤ 255 then some (.ldbits (BitVec.ofNat 8 n)) else none
  | none => none

/-- A micro-address operand: a `0x` number from 0x000 to 0x3FF, or a label (R145). DESIGN CHOICE (log 22): an operand that begins
`0x` and is no hexadecimal number is taken as a label. -/
def targetOperand (labels : List (Token × Nat)) (o : Token) : Except AsmError UAddr :=
  match hexNumber o with
  | some a => if a < 1024 then .ok (BitVec.ofNat 10 a) else .error .badOperand
  | none =>
    match labels.lookup o with
    | some a => .ok (BitVec.ofNat 10 a)
    | none => .error .undefinedLabel

/-- An operand that is there and legal. -/
def required (o : Option Token) (f : Token → Option Instr) : Except AsmError Instr :=
  match o with
  | none => .error .missingOperand
  | some t => match f t with
    | some i => .ok i
    | none => .error .badOperand

/-- The micro-op of a line (R145, R146). -/
def assembleLine (nbits : Nat) (labels : List (Token × Nat)) (l : AsmLine) : Except AsmError Instr :=
  let name := keyword l.mnemonic
  match plainMnemonics.lookup name, targetMnemonics.lookup name with
  | some i, _ => if l.operand.isSome then .error .extraOperand else .ok i
  | none, some mk =>
    match l.operand with
    | none => .error .missingOperand
    | some o => (targetOperand labels o).map mk
  | none, none =>
    if name = "WAITF" then required l.operand flagOperand
    else if name = "SRCLD" then required l.operand channelOperand
    else if name = "LDBITS" then required l.operand (countOperand nbits)
    else .error .unknownMnemonic

/-- The labels of a program with their addresses; labels are case-sensitive (R145). -/
def labelTable : Nat → List AsmLine → List (Token × Nat)
  | _, [] => []
  | a, l :: ls =>
    match l.label with
    | some t => (t, a) :: labelTable (a + 1) ls
    | none => labelTable (a + 1) ls

/-- The lines of a program, each parsed. -/
def parseLines : List String → Except AsmError (List AsmLine)
  | [] => .ok []
  | t :: ts =>
    match parseLine t, parseLines ts with
    | .ok l, .ok ls => .ok (l :: ls)
    | .error e, _ => .error e
    | .ok _, .error e => .error e

/-- The micro-ops of a program's lines. -/
def assembleLines (nbits : Nat) (labels : List (Token × Nat)) : List AsmLine → Except AsmError (List Instr)
  | [] => .ok []
  | l :: ls =>
    match assembleLine nbits labels l, assembleLines nbits labels ls with
    | .ok i, .ok is => .ok (i :: is)
    | .error e, _ => .error e
    | .ok _, .error e => .error e

/-- The word of a micro-op. -/
def romWord (i : Instr) : Word16 :=
  match encode i with
  | .uop w => w
  | .hcmd _ => 0xFFFF#16

/-- The words of an assembly program, placed from address 0x000 (R145, R482), for an instance with `nbits` bits per byte. -/
def assemble (nbits : Nat) (text : List String) : Except AsmError (List Word16) :=
  match parseLines text with
  | .error e => .error e
  | .ok lines =>
    let labels := labelTable 0 lines
    if 1024 < lines.length then .error .tooLong
    else if !(labels.map Prod.fst).Nodup then .error .duplicateLabel
    else (assembleLines nbits labels lines).map (List.map romWord)

end Sys2Proof.Machine
end

