-- ==== Sys2Proof/Machine/Runs.lean ====
section
/-! DEFINITION. Runs, and the condition that the schedule S(L) puts on them (R412). The choices of a run are an endless
sequence, one for each step, in place of the finite list of choices that a state holds (log 10, log 12). -/

namespace Sys2Proof.Machine

/-- `s` with `x` as its one pending choice. -/
def State.offer (s : State) (x : Turn) : State := s.setEnv { s.env with turns := [x] }

/-- The state after `n` steps of the run from `s` whose step number k (from 0) takes the choice `choice k`. -/
def State.runWith (choice : Nat → Turn) (s : State) : Nat → Result
  | 0 => .next s
  | n + 1 =>
    match s.runWith choice n with
    | .next x => step (x.offer (choice n))
    | .fault r => .fault r
    | .refused r => .refused r

/-- Step `n` of the run is a tick outside every preemption. -/
def State.unpreemptedTick (choice : Nat → Turn) (s : State) (n : Nat) : Bool :=
  match s.runWith choice n with
  | .next x => decide (x.env.preempt = 0) && decide ((x.offer (choice n)).nextTurn = .tick)
  | .fault _ | .refused _ => false

/-- The run follows the schedule S(L) for L = LAT_MAX (R412): at most L ticks, preempted ones left out, come while the
sequencer is enabled and has not stepped; and time goes on, with ticks after every step of the run. DESIGN CHOICE (log 14): the
condition does not bound how many preemptions follow each other before one step of the sequencer, so with IE = 1 it also admits
an endless chain of them in which the sequencer never steps. -/
structure State.FollowsSchedule (choice : Nat → Turn) (s : State) : Prop where
  onTime : ∀ n x, s.runWith choice n = .next x → x.env.lat ≤ x.params.latMax
  timeGoesOn : ∀ n, ∃ m x y, n ≤ m ∧ s.runWith choice m = .next x ∧ s.runWith choice (m + 1) = .next y ∧ y.t = x.t + 1

end Sys2Proof.Machine
end

