-- ==== Sys2Proof/Safety.lean ====
section
/-! DEFINITION. What claims about the machine are stated in: the invariant of every run, the invariant of the reference
micro-ROM, a row of ticks, and the pulse train a row of bits stands for. -/

namespace Sys2Proof

/-- What R11 and R12 require of the parameters of an instance. T1, T2, T3 and PROTO_OK are left to INIT (R316). -/
def Params.wf (p : Params) : Bool :=
  decide (2 ≤ p.cntW) && (decide (1 ≤ p.portW) && decide (p.portW ≤ 32)) && decide (p.pin < p.portW)
    && decide (p.nbits ≤ 255) && decide (p.portInit.toNat < 2 ^ p.portW)

/-- T(b), the high time of a bit (R230): T1 for a 0, T1 + T2 for a 1. -/
def Params.highTicks (p : Params) (b : Bool) : Nat := if b then p.t1 + p.t2 else p.t1

/-- The word is a micro-op's (R112 to R116, R120, R125): its OPC, w / 1024, is in the opcode map, and its ARG, w mod 1024, has
the must-be-zero bits 0, FLG not 3 and CH not 3. -/
def MappedWord (w : Word16) : Prop :=
  (w.toNat / 1024 ∈ [0x00, 0x01, 0x02, 0x03, 0x04, 0x06, 0x07, 0x08, 0x09, 0x0A, 0x10, 0x12, 0x15, 0x20, 0x21, 0x23, 0x24,
      0x28, 0x29, 0x2A, 0x2B, 0x2C, 0x2D] ∧ w.toNat % 1024 = 0) ∨
  (w.toNat / 1024 ∈ [0x05, 0x22] ∧ w.toNat % 1024 < 3) ∨
  (w.toNat / 1024 = 0x11 ∧ w.toNat % 1024 < 256) ∨
  w.toNat / 1024 ∈ [0x13, 0x14, 0x25, 0x26, 0x27]

/-- The host command word is reserved (R132): OP, w mod 16, is 0x0 or 0x4 to 0xF; or bits [7:4] are not 0; or OP is INIT or
SHOW and COUNT, w / 256, is not 0. -/
def ReservedCommandWord (w : Word32) : Prop :=
  (w.toNat % 16 = 0 ∨ 4 ≤ w.toNat % 16) ∨ w.toNat / 16 % 16 ≠ 0 ∨
  ((w.toNat % 16 = 1 ∨ w.toNat % 16 = 2) ∧ w.toNat / 256 ≠ 0)

namespace Machine

/-- `n` ticks with no other step between them. -/
def State.ticks : Nat → State → State
  | 0, s => s
  | n + 1, s => (State.ticks n s).tick

/-- The invariant of every run. -/
structure State.Inv (s : State) : Prop where
  params_wf : s.params.wf = true
  rom_wf : s.rom.wf = true
  /-- Register widths (R15). -/
  cnt_fits : s.timer.cnt < 2 ^ s.params.cntW
  per_fits : s.timer.per < 2 ^ s.params.cntW
  cmpa_fits : s.timer.cmpa < 2 ^ s.params.cntW
  cmpb_fits : s.timer.cmpb < 2 ^ s.params.cntW
  port_fits : s.port.toNat < 2 ^ s.params.portW
  hi_fits : ∀ v, s.regs.hi = some v → v.toNat < 2 ^ s.params.portW
  lo_fits : ∀ v, s.regs.lo = some v → v.toNat < 2 ^ s.params.portW
  /-- The sequencer registers carry no value between frames (R44, R63). -/
  idle_unwritten : s.status.seqState = .idle → s.regs = SeqRegs.unwritten
  /-- No frame runs unless INIT found the configuration valid (R53, R318). -/
  cfgOk_valid : s.status.cfgOk = true → s.params.valid = true
  run_configured : s.status.seqState = .run → s.status.cfgOk = true
  /-- CAUSE is NONE while a frame runs (R55). -/
  run_cause : s.status.seqState = .run → s.status.cause = .none
  /-- DONE stands only between frames (R54). -/
  done_idle : s.status.done = true → s.status.seqState = .idle
  /-- The two fault codes stand exactly in the FAULT state (R400). -/
  fault_cause : s.status.seqState = .fault ↔ (s.status.cause = .illegalUop ∨ s.status.cause = .unwrittenRead)
  /-- LAST_MARK is a time that has been (R56). -/
  mark_past : ∀ m, s.lastMark = some m → m ≤ s.t
  /-- The trace is in the order of time, and ends at the port as it stands (R60). -/
  trace_ordered : s.trace.Pairwise fun a b => a.1 ≤ b.1
  trace_past : ∀ e ∈ s.trace, e.1 ≤ s.t
  trace_port : (s.trace.getLast?.map Prod.snd).getD s.params.portInit = s.port
  /-- Ticks count against LAT_MAX only from where the sequencer becomes enabled (R412). -/
  lat_from_enabling : s.enabled = false → s.env.lat = 0
  /-- A preemption is in progress only while the sequencer runs with IE = 1 (R410). -/
  preempt_run : 0 < s.env.preempt → s.status.seqState = .run ∧ s.ie = true

/-- The sequencer stands on the listing of R290 at upc, with what the listing has done by there: which registers are
written, which mask the port shows, where interrupts are masked, and how the timer is set. -/
structure State.AtListing (s : State) : Prop where
  upc_listed : s.upc.toNat ≤ 0x29
  masks : 2 ≤ s.upc.toNat → s.regs.hi.isSome ∧ ∃ lo, s.regs.lo = some lo ∧ lo.getLsbD s.params.pin = false
  byte : 5 ≤ s.upc.toNat → s.regs.b.isSome
  saved : 6 ≤ s.upc.toNat → s.regs.sie.isSome
  deadline : 0x0A ≤ s.upc.toNat → s.regs.d.isSome
  condition : s.upc.toNat = 0x0B ∨ s.upc.toNat = 0x17 → s.regs.f.isSome
  link : 0x21 ≤ s.upc.toNat →
    s.regs.lr = some 0x00E#10 ∨ s.regs.lr = some 0x010#10 ∨ s.regs.lr = some 0x012#10
  count : 0x22 ≤ s.upc.toNat → s.regs.i.isSome
  /-- The line is high only between the PWH and the PWL of a bit (words 0x025 and 0x026). -/
  line_low : 3 ≤ s.upc.toNat → s.upc.toNat ≠ 0x25 → s.upc.toNat ≠ 0x26 → s.regs.lo = some s.port
  line_high : s.upc.toNat = 0x25 ∨ s.upc.toNat = 0x26 → s.regs.hi = some s.port
  /-- The critical section: all of it but the window at word 0x015 and the exits after RSI (R300, R464). -/
  masked : (6 ≤ s.upc.toNat ∧ s.upc.toNat ≤ 0x14) ∨ (0x16 ≤ s.upc.toNat ∧ s.upc.toNat ≤ 0x1A) ∨
    s.upc.toNat = 0x1D ∨ s.upc.toNat = 0x1E ∨ 0x21 ≤ s.upc.toNat → s.ie = false
  configured : 7 ≤ s.upc.toNat → s.timer.per = s.params.cntBits s.params.perCfg ∧
    s.timer.cmpa = s.params.cntBits s.params.t1 ∧ s.timer.cmpb = s.params.cntBits (s.params.t1 + s.params.t2)
  running : (9 ≤ s.upc.toNat ∧ s.upc.toNat ≤ 0x19) ∨ s.upc.toNat = 0x1D ∨ 0x21 ≤ s.upc.toNat → s.timer.en = true
  stopped : (0x1A ≤ s.upc.toNat ∧ s.upc.toNat ≤ 0x1C) ∨ (0x1E ≤ s.upc.toNat ∧ s.upc.toNat ≤ 0x20) →
    s.timer.en = false

/-- The invariant of a conforming instance, one with the micro-ROM of R290: no fault (R408), and a running sequencer stands
on the listing. -/
structure State.OnListing (s : State) : Prop where
  params_wf : s.params.wf = true
  rom_reference : s.rom = Rom.reference s.params.nbits
  cfgOk_valid : s.status.cfgOk = true → s.params.valid = true
  run_configured : s.status.seqState = .run → s.status.cfgOk = true
  no_fault : s.status.seqState ≠ .fault
  preempt_run : 0 < s.env.preempt → s.status.seqState = .run ∧ s.ie = true
  at_listing : s.status.seqState = .run → s.AtListing

/-- The port events of a row of bits sent from time `o`, one slot of PER ticks each: the line rises at the start of the
slot and falls T(b) ticks later (R204, R230). -/
def pulseTrain (p : Params) (hi lo : PortWord) : Nat → List Bool → List (Nat × PortWord)
  | _, [] => []
  | o, b :: bs => (o, hi) :: (o + p.highTicks b, lo) :: pulseTrain p hi lo (o + p.perCfg) bs

/-- The bits of a byte sent most significant first, `n` of them, 0 bits after the eighth (R84, R228). -/
def msbFirst (v : Byte) : Nat → List Bool
  | 0 => []
  | n + 1 => v.getLsbD 7 :: msbFirst (v <<< 1) n

/-- The timer runs with the protocol's values, as TCFG and TEN leave it (R160, R164). -/
structure State.TimerRunning (s : State) : Prop where
  en : s.timer.en = true
  per : s.timer.per = s.params.perCfg
  cmpa : s.timer.cmpa = s.params.t1
  cmpb : s.timer.cmpb = s.params.t1 + s.params.t2
  fits : s.params.perCfg ≤ 2 ^ s.params.cntW - 1
  t1_pos : 1 ≤ s.params.t1
  t2_pos : 1 ≤ s.params.t2
  t3_pos : 1 ≤ s.params.t3

/-- A frame runs on the reference micro-ROM under the ideal schedule with no preemption (R14, R230). -/
structure State.IdealRun (s : State) : Prop where
  rom : s.rom = Rom.reference s.params.nbits
  nbits : s.params.nbits ≤ 255
  run : s.status.seqState = .run
  turns : s.env.turns = []
  preempt : s.env.preempt = 0

end Machine
end Sys2Proof
end

