-- ==== Sys2Proof/Certificates/Slice0/Obligations.lean ====
section
/-! DEFINITION. The statements for the provers. A statement speaks of every instance, because the parameters stand in the
state. Next states are written out field by field: a field that is not named is unchanged. -/

open Sys2Proof Sys2Proof.Machine

/-! ## Reset, ROM, encoding, step -/

/-- R62. -/
def Obligations.ResetValuesOfEveryInstance : Prop :=
  ∀ p : Params,
    (State.resetOf p).t = 0 ∧
    (State.resetOf p).timer = ⟨0, 0, 0, 0, false, false, false, false⟩ ∧
    (State.resetOf p).regRead 0x0#4 = 0b0010#32 ∧
    (State.resetOf p).port = p.portInit ∧
    (State.resetOf p).regs = ⟨none, none, none, none, none, none, none, none⟩ ∧
    (State.resetOf p).upc = 0x000#10 ∧
    (State.resetOf p).status = ⟨.idle, false, false, .none⟩ ∧
    (State.resetOf p).regRead 0x8#4 = 0#32 ∧
    (State.resetOf p).lastMark = none ∧
    (State.resetOf p).ie = p.ieInit ∧
    (State.resetOf p).srcSel = .host ∧
    (State.resetOf p).trace = []

/-- R290: word by word, the listing's word and the micro-op it decodes to; every other word is 0xFFFF. -/
def Obligations.ReferenceRomIsTheListing : Prop :=
  ∀ n : BitVec 8, 8 ≤ n.toNat →
    ((List.range 42).map fun a =>
      (Rom.readAt (Rom.reference n.toNat) a, (decodeUop (Rom.readAt (Rom.reference n.toNat) a)).toOption)) =
      [(0xA800, some .pgwait), (0x1800, some .masks), (0x2000, some .pwl), (0x8000, some .srcpd),
       (0x8800, some (.srcld 0)), (0x2400, some .cli), (0x0400, some .tcfg), (0x0800, some .trst),
       (0x0C00, some .ten), (0xA000, some .dlrst), (0x9000, some .srchas), (0x9419, some (.bf 0x019)),
       (0x8400, some .srcsd), (0x5021, some (.call 0x021)), (0x8801, some (.srcld 1)), (0x5021, some (.call 0x021)),
       (0x8802, some (.srcld 2)), (0x5021, some (.call 0x021)), (0x8C00, some .srcadv), (0x9C18, some (.bnt 0x018)),
       (0x2800, some .rsi), (0x2400, some .cli), (0xA400, some .dlchk), (0x941D, some (.bf 0x01D)),
       (0x980A, some (.jmp 0x00A)), (0x1000, some .tdis), (0x2800, some .rsi), (0xAC00, some .pgmark),
       (0xB000, some .endok), (0x1000, some .tdis), (0x2800, some .rsi), (0xAC00, some .pgmark),
       (0xB400, some .endab), (0x4400 ||| n.setWidth 16, some (.ldbits n)), (0x1400, some (.waitf 0)), (0x0800, some .trst),
       (0x1C00, some .pwh), (0x4000, some .wsel), (0x2000, some .pwl), (0x4800, some .shl),
       (0x4C22, some (.bnz 0x022)), (0x5400, some .ret)] ∧
    ∀ a, 0x02A ≤ a → Rom.readAt (Rom.reference n.toNat) a = 0xFFFF#16

/-- The invariant of State.Inv holds after reset, of every instance whose parameters are as R11 and R12 require, and at
State.reset (the instance EX, log 2). -/
def Obligations.InvariantHoldsAfterReset : Prop :=
  (∀ p : Params, p.wf = true → (State.resetOf p).Inv) ∧ State.reset.Inv

/-- Every step keeps the invariant of State.Inv. -/
def Obligations.StepKeepsInvariant : Prop :=
  ∀ s s' : State, s.Inv → step s = .next s' → s'.Inv

/-- Decoding the encoding of a well-formed instruction gives it back. -/
def Obligations.DecodeOfEncode : Prop :=
  ∀ i : Instr, i.wellFormed = true → decode (encode i) = .ok i

/-- A word that decodes is the encoding of the instruction it decodes to, which is well-formed: no two words of a kind have
one meaning. -/
def Obligations.EncodeOfDecode : Prop :=
  ∀ (c : CodeWord) (i : Instr), decode c = .ok i → i.wellFormed = true ∧ encode i = c

/-- Words written out from the encoding tables (R120, R131), one or more of every family, and rejected ones. -/
def Obligations.WordsOfTheSpecDecode : Prop :=
  decodeUop 0x0000#16 = .ok .nop ∧ decodeUop 0x1402#16 = .ok (.waitf 2#2) ∧ decodeUop 0x44FF#16 = .ok (.ldbits 255#8) ∧
  decodeUop 0x4FFF#16 = .ok (.bnz 0x3FF#10) ∧ decodeUop 0x8802#16 = .ok (.srcld 2#2) ∧
  decodeUop 0x9419#16 = .ok (.bf 0x019#10) ∧ decodeUop 0xB400#16 = .ok .endab ∧
  decodeHcmd 0x00000001#32 = .ok .initCmd ∧ decodeHcmd 0x00000203#32 = .ok (.clearCmd 2#24) ∧
  decodeUop 0x0001#16 = .error .nonzeroArg ∧ decodeUop 0x1403#16 = .error .reservedFlag ∧
  decodeUop 0x8803#16 = .error .reservedChannel ∧ decodeUop 0x4700#16 = .error .nonzeroArg ∧
  decodeUop 0x2C00#16 = .error .reservedOpcode ∧ decodeUop 0xFFFF#16 = .error .reservedOpcode ∧
  decodeHcmd 0x00000102#32 = .error .nonzeroCount ∧ decodeHcmd 0x00000012#32 = .error .reservedCommandBits

/-- R125 and R140: exactly the words of the opcode map with their must-be-zero bits 0, FLG not 3 and CH not 3 decode. -/
def Obligations.ExactlyTheMappedWordsDecode : Prop :=
  ∀ w : Word16, (∃ i, decodeUop w = .ok i) ↔ MappedWord w

/-- R131, R132 and R322: which 32-bit words are commands, which command each is, which words are reserved, and that writing a
reserved word while IDLE sets CAUSE to BAD_COMMAND and nothing else. -/
def Obligations.HostCommandWords : Prop :=
  ∀ w : Word32,
    (decodeHcmd w = .ok .initCmd ↔ w = 0x00000001#32) ∧
    (decodeHcmd w = .ok .showCmd ↔ w = 0x00000002#32) ∧
    (∀ count : BitVec 24, decodeHcmd w = .ok (.clearCmd count) ↔ w.toNat = count.toNat * 256 + 0x03) ∧
    ((∃ e, decodeHcmd w = .error e) ↔ ReservedCommandWord w) ∧
    ∀ s : State, s.status.seqState = .idle → ReservedCommandWord w →
      s.hostAccess (.write .word 0x9#4 w) = .next { s with status := { s.status with cause := .badCommand } }

/-- R110: the sequencer's turn executes the micro-op at upc (what the step adds around it: the schedule's choice is gone, and
the count of R412 starts anew). With no choice pending, the sequencer has the turn unless the micro-op is blocked: that an empty
list of choices stands for the ideal schedule is the model's choice (log 10). While SEQ_STATE is IDLE or FAULT the sequencer has
no step: that its turn is then passed, and nothing but the choice is gone, is the model's choice (log 11). -/
def Obligations.StepRunsTheDecodedMicroOp : Prop :=
  (∀ (s : State) (i : Instr), s.status.seqState = .run → s.env.preempt = 0 → decodeUop (s.rom.fetch s.upc) = .ok i →
    (s.nextTurn = .seq → step s = exec i { s with env := { s.env with turns := s.env.turns.tail, lat := 0 } }) ∧
    (s.env.turns = [] → s.blockedOn i = false → s.nextTurn = .seq)) ∧
  ∀ s : State, s.status.seqState ≠ .run → s.nextTurn = .seq →
    step s = .next { s with env := { s.env with turns := s.env.turns.tail } }

/-- R405: a word outside the opcode map raises ILLEGAL_UOP, whatever the registers hold, with upc and everything else of the
encoder unchanged; 0xFFFF is such a word. -/
def Obligations.IllegalWordFaults : Prop :=
  ¬ MappedWord 0xFFFF#16 ∧
  ∀ s : State, s.status.seqState = .run → s.env.preempt = 0 → s.nextTurn = .seq → ¬ MappedWord (s.rom.fetch s.upc) →
    step s = .next { s with
      status := { s.status with seqState := .fault, done := false, cause := .illegalUop }
      env := { s.env with turns := s.env.turns.tail, lat := 0 } }

/-- R312: the host's turn takes a write of HCMD. While FAULT it has no effect; else a command word runs its command and a
reserved word sets CAUSE to BAD_COMMAND. A read of HCMD returns 0 and changes nothing. -/
def Obligations.HostTurnRunsTheCommand : Prop :=
  ∀ (s : State) (q : List HostAccess), s.nextTurn = .host → s.status.seqState ≠ .run →
    (s.env.hostQueue = .read .word 0x9#4 :: q →
      step s = .next { s with
        env := { s.env with
          turns := s.env.turns.tail, hostQueue := q, hostReads := s.env.hostReads ++ [(0x9#4, 0#32)] } }) ∧
    ∀ w : Word32, s.env.hostQueue = .write .word 0x9#4 w :: q →
      (s.status.seqState = .fault →
        step s = .next { s with env := { s.env with turns := s.env.turns.tail, hostQueue := q } }) ∧
      (s.status.seqState = .idle →
        (∀ i, decodeHcmd w = .ok i →
          step s = exec i { s with env := { s.env with turns := s.env.turns.tail, hostQueue := q } }) ∧
        (w = 0x00000001#32 → decodeHcmd w = .ok .initCmd) ∧
        (w = 0x00000002#32 → decodeHcmd w = .ok .showCmd) ∧
        (∀ count : BitVec 24, w.toNat = count.toNat * 256 + 0x03 → decodeHcmd w = .ok (.clearCmd count)) ∧
        (ReservedCommandWord w →
          step s = .next { s with
            status := { s.status with cause := .badCommand }
            env := { s.env with turns := s.env.turns.tail, hostQueue := q } }))

/-! ## The timer -/

/-- R151: the tick's update of t, the counter and the flags. -/
def Obligations.TickUpdatesCounterAndFlags : Prop :=
  ∀ s : State,
    s.tick.t = s.t + 1 ∧
    (s.timer.en = false → s.tick.timer = s.timer) ∧
    (s.timer.en = true → (s.timer.cnt + 1) % 2 ^ s.params.cntW ≠ s.timer.per →
      s.tick.timer = { s.timer with
        cnt := (s.timer.cnt + 1) % 2 ^ s.params.cntW
        ma := s.timer.ma || decide ((s.timer.cnt + 1) % 2 ^ s.params.cntW = s.timer.cmpa)
        mb := s.timer.mb || decide ((s.timer.cnt + 1) % 2 ^ s.params.cntW = s.timer.cmpb) }) ∧
    (s.timer.en = true → (s.timer.cnt + 1) % 2 ^ s.params.cntW = s.timer.per →
      s.tick.timer = { s.timer with
        cnt := 0
        ovf := true
        ma := s.timer.ma || decide (s.timer.cmpa = 0)
        mb := s.timer.mb || decide (s.timer.cmpb = 0) }) ∧
    ∃ env, s.tick = { s with t := s.tick.t, timer := s.tick.timer, env := env }

/-- R35 and R152: a tick never clears a flag, only TRST among the instructions writes one, and a host register write only
clears the flags whose bits it writes as 1 in TMR_STATUS. -/
def Obligations.WhoWritesTheFlags : Prop :=
  (∀ s : State, (s.timer.ovf = true → s.tick.timer.ovf = true) ∧ (s.timer.ma = true → s.tick.timer.ma = true) ∧
    (s.timer.mb = true → s.tick.timer.mb = true)) ∧
  (∀ (i : Instr) (s s' : State), exec i s = .next s' → i ≠ .trst →
    s'.timer.ovf = s.timer.ovf ∧ s'.timer.ma = s.timer.ma ∧ s'.timer.mb = s.timer.mb) ∧
  (∀ (s : State) (idx : BitVec 4) (v : Word32),
    (s.regWrite idx v).timer.ovf = (s.timer.ovf && !(decide (idx = 5#4) && v.getLsbD 0)) ∧
    (s.regWrite idx v).timer.ma = (s.timer.ma && !(decide (idx = 5#4) && v.getLsbD 1)) ∧
    (s.regWrite idx v).timer.mb = (s.timer.mb && !(decide (idx = 5#4) && v.getLsbD 2)))

/-- R153: counted from a TRST, with nothing else writing the timer, MA is set from tick CMPA on, MB from tick CMPB on, OVF
from tick PER on, and CNT is 0 at tick PER. TCFG of a valid instance sets CMPA = T1, CMPB = T1 + T2, PER = T1 + T2 + T3. -/
def Obligations.MatchesComeAtTheirTicks : Prop :=
  (∀ (s s' : State) (n : Nat), s.timer.en = true → 1 ≤ s.timer.cmpa → s.timer.cmpa < s.timer.per → 1 ≤ s.timer.cmpb →
    s.timer.cmpb < s.timer.per → s.timer.per < 2 ^ s.params.cntW → exec .trst s = .next s' →
    (State.ticks n s').t = s.t + n ∧
    ((State.ticks n s').timer.ma = true ↔ s.timer.cmpa ≤ n) ∧
    ((State.ticks n s').timer.mb = true ↔ s.timer.cmpb ≤ n) ∧
    ((State.ticks n s').timer.ovf = true ↔ s.timer.per ≤ n) ∧
    (n = s.timer.per → (State.ticks n s').timer.cnt = 0)) ∧
  (∀ s s' : State, s.params.valid = true → exec .tcfg s = .next s' →
    s'.timer.cmpa = s.params.t1 ∧ s'.timer.cmpb = s.params.t1 + s.params.t2 ∧
    s'.timer.per = s.params.t1 + s.params.t2 + s.params.t3)

/-- R154 and R406: with the timer stopped, a wait for a flag that is 0 never ends. Whatever the schedule offers, short of a
reset, only time and the environment move. -/
def Obligations.StarvedWaitHangs : Prop :=
  ∀ (s : State) (i : Instr), s.status.seqState = .run → s.timer.en = false → s.nextTurn ≠ .reset →
    decodeUop (s.rom.fetch s.upc) = .ok i →
    ((∃ flg, i = .waitf flg ∧ s.timer.flag flg = some false) ∨
     (∃ b, i = .wsel ∧ s.regs.b = some b ∧ (if b.getLsbD 7 then s.timer.mb else s.timer.ma) = false)) →
    ∃ t env, s.t ≤ t ∧ step s = .next { s with t := t, env := env }

/-! ## Timer, port and interrupt-mask micro-ops -/

/-- R158. -/
def Obligations.NopOnlyAdvances : Prop :=
  decodeUop 0x0000#16 = .ok .nop ∧ ∀ s : State, exec .nop s = .next { s with upc := s.upc + 1 }

/-- R160. -/
def Obligations.TcfgLoadsTheProtocolTiming : Prop :=
  decodeUop 0x0400#16 = .ok .tcfg ∧
  ∀ s : State, exec .tcfg s = .next { s with
    upc := s.upc + 1
    timer := { s.timer with
      per := (s.params.t1 + s.params.t2 + s.params.t3) % 2 ^ s.params.cntW
      cmpa := s.params.t1 % 2 ^ s.params.cntW
      cmpb := (s.params.t1 + s.params.t2) % 2 ^ s.params.cntW } }

/-- R162. -/
def Obligations.TrstRestartsTheSlot : Prop :=
  decodeUop 0x0800#16 = .ok .trst ∧
  ∀ s : State, exec .trst s = .next { s with
    upc := s.upc + 1
    timer := { s.timer with cnt := 0, ovf := false, ma := false, mb := false } }

/-- R164 and R166. -/
def Obligations.TenAndTdisSwitchTheTimer : Prop :=
  decodeUop 0x0C00#16 = .ok .ten ∧ decodeUop 0x1000#16 = .ok .tdis ∧
  ∀ s : State,
    exec .ten s = .next { s with upc := s.upc + 1, timer := { s.timer with en := true } } ∧
    exec .tdis s = .next { s with upc := s.upc + 1, timer := { s.timer with en := false } }

/-- R168: WAITF completes where its flag is 1 and leaves the flag; where it is 0 the sequencer's turn changes nothing. FLG = 3
does not decode. -/
def Obligations.WaitfWaitsForItsFlag : Prop :=
  decodeUop 0x1400#16 = .ok (.waitf 0#2) ∧ decodeUop 0x1401#16 = .ok (.waitf 1#2) ∧
  decodeUop 0x1402#16 = .ok (.waitf 2#2) ∧ decodeUop 0x1403#16 = .error .reservedFlag ∧
  ∀ s : State,
    exec (.waitf 0#2) s = .next (if s.timer.ovf then { s with upc := s.upc + 1 } else s) ∧
    exec (.waitf 1#2) s = .next (if s.timer.ma then { s with upc := s.upc + 1 } else s) ∧
    exec (.waitf 2#2) s = .next (if s.timer.mb then { s with upc := s.upc + 1 } else s)

/-- R170: HI is PORT with bit PIN set, LO is PORT with bit PIN clear, bit by bit. -/
def Obligations.MasksAssertAndDeassertThePin : Prop :=
  decodeUop 0x1800#16 = .ok .masks ∧
  ∀ s : State, s.params.pin < s.params.portW → s.params.portW ≤ 32 →
    ∃ hi lo : PortWord,
      exec .masks s = .next { s with upc := s.upc + 1, regs := { s.regs with hi := some hi, lo := some lo } } ∧
      ∀ j : Nat, hi.getLsbD j = (s.port.getLsbD j || decide (j = s.params.pin)) ∧
        lo.getLsbD j = (s.port.getLsbD j && decide (j ≠ s.params.pin))

/-- R172, R174 and R176: the port takes the whole mask and the trace gains the event, also where the port does not change;
an unwritten mask faults. -/
def Obligations.PwhAndPwlWriteThePort : Prop :=
  decodeUop 0x1C00#16 = .ok .pwh ∧ decodeUop 0x2000#16 = .ok .pwl ∧
  ∀ s : State,
    (∀ v, s.regs.hi = some v →
      exec .pwh s = .next { s with upc := s.upc + 1, port := v, trace := s.trace ++ [(s.t, v)] }) ∧
    (∀ v, s.regs.lo = some v →
      exec .pwl s = .next { s with upc := s.upc + 1, port := v, trace := s.trace ++ [(s.t, v)] }) ∧
    (s.regs.hi = none → exec .pwh s = .next { s with
      status := { s.status with seqState := .fault, done := false, cause := .unwrittenRead } }) ∧
    (s.regs.lo = none → exec .pwl s = .next { s with
      status := { s.status with seqState := .fault, done := false, cause := .unwrittenRead } })

/-- R178 and R180: CLI saves IE and clears it, RSI restores the saved value; an unwritten SIE faults. -/
def Obligations.CliSavesAndRsiRestores : Prop :=
  decodeUop 0x2400#16 = .ok .cli ∧ decodeUop 0x2800#16 = .ok .rsi ∧
  ∀ s : State,
    exec .cli s = .next { s with upc := s.upc + 1, regs := { s.regs with sie := some s.ie }, ie := false } ∧
    (∀ v, s.regs.sie = some v → exec .rsi s = .next { s with upc := s.upc + 1, ie := v }) ∧
    (s.regs.sie = none → exec .rsi s = .next { s with
      status := { s.status with seqState := .fault, done := false, cause := .unwrittenRead } })

/-! ## Byte walker micro-ops -/

/-- R210: WSEL waits for MA where bit 7 of B is 0 and for MB where it is 1, and clears neither; an unwritten B faults. -/
def Obligations.WselWaitsForTheBitsMatch : Prop :=
  decodeUop 0x4000#16 = .ok .wsel ∧
  ∀ s : State,
    (∀ b : Byte, s.regs.b = some b → b.toNat < 128 →
      exec .wsel s = .next (if s.timer.ma then { s with upc := s.upc + 1 } else s)) ∧
    (∀ b : Byte, s.regs.b = some b → 128 ≤ b.toNat →
      exec .wsel s = .next (if s.timer.mb then { s with upc := s.upc + 1 } else s)) ∧
    (s.regs.b = none → exec .wsel s = .next { s with
      status := { s.status with seqState := .fault, done := false, cause := .unwrittenRead } })

/-- R212. -/
def Obligations.LdbitsLoadsTheCount : Prop :=
  ∀ (n : BitVec 8) (s : State),
    decodeUop (0x4400#16 ||| n.setWidth 16) = .ok (.ldbits n) ∧
    exec (.ldbits n) s = .next { s with upc := s.upc + 1, regs := { s.regs with i := some n } }

/-- R214: SHL doubles B mod 256 and decrements I mod 256; an unwritten B or I faults. -/
def Obligations.ShlConsumesOneBit : Prop :=
  decodeUop 0x4800#16 = .ok .shl ∧
  ∀ s : State,
    (∀ b i : Byte, s.regs.b = some b → s.regs.i = some i →
      exec .shl s = .next { s with
        upc := s.upc + 1
        regs := { s.regs with
          b := some (BitVec.ofNat 8 (2 * b.toNat % 256))
          i := some (BitVec.ofNat 8 ((i.toNat + 255) % 256)) } }) ∧
    (s.regs.b = none ∨ s.regs.i = none → exec .shl s = .next { s with
      status := { s.status with seqState := .fault, done := false, cause := .unwrittenRead } })

/-- R216. -/
def Obligations.BnzLoopsWhileBitsRemain : Prop :=
  ∀ (tgt : UAddr) (s : State),
    decodeUop (0x4C00#16 ||| tgt.setWidth 16) = .ok (.bnz tgt) ∧
    (∀ i : Byte, s.regs.i = some i →
      exec (.bnz tgt) s = .next { s with upc := if i = 0#8 then s.upc + 1 else tgt }) ∧
    (s.regs.i = none → exec (.bnz tgt) s = .next { s with
      status := { s.status with seqState := .fault, done := false, cause := .unwrittenRead } })

/-- R218 and R220. -/
def Obligations.CallAndRet : Prop :=
  decodeUop 0x5400#16 = .ok .ret ∧
  ∀ (tgt : UAddr) (s : State),
    decodeUop (0x5000#16 ||| tgt.setWidth 16) = .ok (.call tgt) ∧
    exec (.call tgt) s = .next { s with upc := tgt, regs := { s.regs with lr := some (s.upc + 1) } } ∧
    (∀ a, s.regs.lr = some a → exec .ret s = .next { s with upc := a }) ∧
    (s.regs.lr = none → exec .ret s = .next { s with
      status := { s.status with seqState := .fault, done := false, cause := .unwrittenRead } })

/-! ## Frame driver micro-ops -/

/-- R252 and R254: a dithering step is one call of the source and changes nothing else of the encoder. -/
def Obligations.DitherStepsOnlyCallTheSource : Prop :=
  decodeUop 0x8000#16 = .ok .srcpd ∧ decodeUop 0x8400#16 = .ok .srcsd ∧
  ∀ s : State,
    exec .srcpd s = .next { s with
      upc := s.upc + 1, env := { s.env with srcCalls := s.env.srcCalls ++ [.preDitherStep] } } ∧
    exec .srcsd s = .next { s with
      upc := s.upc + 1, env := { s.env with srcCalls := s.env.srcCalls ++ [.stepDithering] } }

/-- R256, R332 and R336: SRCLD loads B with the source's answer. An oracle with an answer queued gives that one, RawSource the
current pixel's channel, the ZERO source 0x00; in every case some byte is loaded and nothing else of the encoder changes.
CH = 3 does not decode. -/
def Obligations.SrcldLoadsTheChannel : Prop :=
  decodeUop 0x8803#16 = .error .reservedChannel ∧
  ∀ (s : State) (ch : BitVec 2), ch ≠ 3#2 →
    decodeUop (0x8800#16 ||| ch.setWidth 16) = .ok (.srcld ch) ∧
    (∃ (v : Byte) (src : HostSource), exec (.srcld ch) s = .next { s with
      upc := s.upc + 1
      regs := { s.regs with b := some v }
      env := { s.env with srcCalls := s.env.srcCalls ++ [.loadChannel ch], hostSource := src } }) ∧
    (∀ n, s.srcSel = .zero n → exec (.srcld ch) s = .next { s with
      upc := s.upc + 1
      regs := { s.regs with b := some 0x00#8 }
      env := { s.env with srcCalls := s.env.srcCalls ++ [.loadChannel ch] } }) ∧
    (∀ v bs more, s.srcSel = .host → s.env.hostSource = .oracle (v :: bs) more → exec (.srcld ch) s = .next { s with
      upc := s.upc + 1
      regs := { s.regs with b := some v }
      env := { s.env with srcCalls := s.env.srcCalls ++ [.loadChannel ch], hostSource := .oracle bs more } }) ∧
    (∀ px p, ∀ hp : p < px.length, s.srcSel = .host → s.env.hostSource = .raw px p → exec (.srcld ch) s = .next { s with
      upc := s.upc + 1
      regs := { s.regs with b := some (if ch = 0#2 then px[p].ch0 else if ch = 1#2 then px[p].ch1 else px[p].ch2) }
      env := { s.env with srcCalls := s.env.srcCalls ++ [.loadChannel ch] } })

/-- R258, R332 and R336: SRCADV moves the source to its next pixel and loads B with that pixel's channel 0. -/
def Obligations.SrcadvAdvancesAndLoads : Prop :=
  decodeUop 0x8C00#16 = .ok .srcadv ∧
  ∀ s : State,
    (∃ (v : Byte) (src : HostSource) (z : Nat), exec .srcadv s = .next { s with
      upc := s.upc + 1
      regs := { s.regs with b := some v }
      zeroCursor := z
      env := { s.env with srcCalls := s.env.srcCalls ++ [.advanceAndLoadChannel0], hostSource := src } }) ∧
    (∀ n, s.srcSel = .zero n → exec .srcadv s = .next { s with
      upc := s.upc + 1
      regs := { s.regs with b := some 0x00#8 }
      zeroCursor := s.zeroCursor + 1
      env := { s.env with srcCalls := s.env.srcCalls ++ [.advanceAndLoadChannel0] } }) ∧
    (∀ v bs more, s.srcSel = .host → s.env.hostSource = .oracle (v :: bs) more → exec .srcadv s = .next { s with
      upc := s.upc + 1
      regs := { s.regs with b := some v }
      env := { s.env with
        srcCalls := s.env.srcCalls ++ [.advanceAndLoadChannel0], hostSource := .oracle bs more } }) ∧
    (∀ px p, s.srcSel = .host → s.env.hostSource = .raw px p → ∃ v : Byte,
      (∀ hp : p + 1 < px.length, v = px[p + 1].ch0) ∧ exec .srcadv s = .next { s with
        upc := s.upc + 1
        regs := { s.regs with b := some v }
        env := { s.env with
          srcCalls := s.env.srcCalls ++ [.advanceAndLoadChannel0], hostSource := .raw px (p + 1) } })

/-- R260, R332 and R336: SRCHAS writes F with the source's answer to hasMore(1). -/
def Obligations.SrchasAsksForMore : Prop :=
  decodeUop 0x9000#16 = .ok .srchas ∧
  ∀ s : State,
    (∃ (v : Bool) (src : HostSource), exec .srchas s = .next { s with
      upc := s.upc + 1
      regs := { s.regs with f := some v }
      env := { s.env with srcCalls := s.env.srcCalls ++ [.hasMore 1], hostSource := src } }) ∧
    (∀ n, s.srcSel = .zero n → exec .srchas s = .next { s with
      upc := s.upc + 1
      regs := { s.regs with f := some (decide (s.zeroCursor < n)) }
      env := { s.env with srcCalls := s.env.srcCalls ++ [.hasMore 1] } }) ∧
    (∀ v bytes ms, s.srcSel = .host → s.env.hostSource = .oracle bytes (v :: ms) → exec .srchas s = .next { s with
      upc := s.upc + 1
      regs := { s.regs with f := some v }
      env := { s.env with srcCalls := s.env.srcCalls ++ [.hasMore 1], hostSource := .oracle bytes ms } }) ∧
    (∀ px p, s.srcSel = .host → s.env.hostSource = .raw px p → exec .srchas s = .next { s with
      upc := s.upc + 1
      regs := { s.regs with f := some (decide (p < px.length)) }
      env := { s.env with srcCalls := s.env.srcCalls ++ [.hasMore 1] } })

/-- R262, R264 and R266: BF branches where F = 0, JMP always, BNT where INT_TOLERANT is false; an unwritten F faults. -/
def Obligations.BranchesOfTheFrameDriver : Prop :=
  ∀ (tgt : UAddr) (s : State),
    decodeUop (0x9400#16 ||| tgt.setWidth 16) = .ok (.bf tgt) ∧
    decodeUop (0x9800#16 ||| tgt.setWidth 16) = .ok (.jmp tgt) ∧
    decodeUop (0x9C00#16 ||| tgt.setWidth 16) = .ok (.bnt tgt) ∧
    (∀ f, s.regs.f = some f → exec (.bf tgt) s = .next { s with upc := if f = false then tgt else s.upc + 1 }) ∧
    (s.regs.f = none → exec (.bf tgt) s = .next { s with
      status := { s.status with seqState := .fault, done := false, cause := .unwrittenRead } }) ∧
    exec (.jmp tgt) s = .next { s with upc := tgt } ∧
    exec (.bnt tgt) s = .next { s with upc := if s.params.intTolerant = false then tgt else s.upc + 1 }

/-- R268 and R270: DLRST sets D to t; DLCHK adds a pixel's ideal duration to D and sets F where t is at most the new D plus
ABORT_THRESHOLD; an unwritten D faults. -/
def Obligations.DeadlineMicroOps : Prop :=
  decodeUop 0xA000#16 = .ok .dlrst ∧ decodeUop 0xA400#16 = .ok .dlchk ∧
  ∀ s : State,
    exec .dlrst s = .next { s with upc := s.upc + 1, regs := { s.regs with d := some s.t } } ∧
    (∀ d d', s.regs.d = some d →
      d' = d + 3 * (8 + s.params.xtra) * (s.params.t1 + s.params.t2 + s.params.t3) →
      exec .dlchk s = .next { s with
        upc := s.upc + 1
        regs := { s.regs with d := some d', f := some (decide (s.t ≤ d' + s.params.abortThreshold)) } }) ∧
    (s.regs.d = none → exec .dlchk s = .next { s with
      status := { s.status with seqState := .fault, done := false, cause := .unwrittenRead } })

/-- R278 and R280: PGWAIT completes where LAST_MARK is NEVER or MIN_GAP ticks have passed since it, and before that the
sequencer's turn changes nothing; PGMARK sets LAST_MARK to t. -/
def Obligations.PacingMicroOps : Prop :=
  decodeUop 0xA800#16 = .ok .pgwait ∧ decodeUop 0xAC00#16 = .ok .pgmark ∧
  ∀ s : State,
    (s.lastMark = none → exec .pgwait s = .next { s with upc := s.upc + 1 }) ∧
    (∀ m, s.lastMark = some m → m + s.params.minGap ≤ s.t → exec .pgwait s = .next { s with upc := s.upc + 1 }) ∧
    (∀ m, s.lastMark = some m → s.t < m + s.params.minGap → exec .pgwait s = .next s) ∧
    exec .pgmark s = .next { s with upc := s.upc + 1, lastMark := some s.t }

/-- R282 and R284: the end of a frame. ENDOK leaves upc as it stands; ENDAB advances it, as R18 and R49 say of every micro-op
without a control transfer. -/
def Obligations.EndMicroOps : Prop :=
  decodeUop 0xB000#16 = .ok .endok ∧ decodeUop 0xB400#16 = .ok .endab ∧
  ∀ s : State,
    exec .endok s = .next { s with
      status := { s.status with seqState := .idle, done := true, cause := .none }
      regs := ⟨none, none, none, none, none, none, none, none⟩ } ∧
    exec .endab s = .next { s with
      upc := s.upc + 1
      status := { s.status with seqState := .idle, done := false, cause := .deadlineAbort }
      regs := ⟨none, none, none, none, none, none, none, none⟩ }

/-! ## Host commands and host registers -/

/-- R314 and R316: INIT sets CFG_OK to Valid, spelled out, and CAUSE with it; nothing else changes, and while FAULT nothing at all. -/
def Obligations.InitValidatesTheConfiguration : Prop :=
  ∀ s : State, (s.status.seqState = .fault → exec .initCmd s = .next s) ∧ (s.status.seqState ≠ .fault →
    ((1 ≤ s.params.t1 ∧ 1 ≤ s.params.t2 ∧ 1 ≤ s.params.t3) ∧
      s.params.t1 + s.params.t2 + s.params.t3 ≤ 2 ^ s.params.cntW - 1 ∧
      (8 ≤ 8 + s.params.xtra ∧ 8 + s.params.xtra ≤ 255) ∧ s.params.pin < s.params.portW ∧ s.params.protoOk = true →
      exec .initCmd s = .next { s with status := { s.status with cfgOk := true, cause := .none } }) ∧
    (¬((1 ≤ s.params.t1 ∧ 1 ≤ s.params.t2 ∧ 1 ≤ s.params.t3) ∧
      s.params.t1 + s.params.t2 + s.params.t3 ≤ 2 ^ s.params.cntW - 1 ∧
      (8 ≤ 8 + s.params.xtra ∧ 8 + s.params.xtra ≤ 255) ∧ s.params.pin < s.params.portW ∧ s.params.protoOk = true) →
      exec .initCmd s = .next { s with status := { s.status with cfgOk := false, cause := .cfgInvalid } }))

/-- R318: SHOW starts a frame from the host's source at word 0x000, or is refused and sets CAUSE only; while FAULT nothing changes. -/
def Obligations.ShowStartsAFrame : Prop :=
  ∀ s : State, (s.status.seqState = .fault → exec .showCmd s = .next s) ∧ (s.status.seqState ≠ .fault →
    (s.status.cfgOk = true → exec .showCmd s = .next { s with
      srcSel := .host
      upc := 0x000#10
      status := { s.status with seqState := .run, done := false, cause := .none } }) ∧
    (s.status.cfgOk = false → exec .showCmd s = .next { s with status := { s.status with cause := .notConfigured } }))

/-- R320 and R336: CLEAR starts a frame of COUNT zero pixels with the ZERO source's cursor at 0, or is refused as SHOW is. -/
def Obligations.ClearStartsAZeroFrame : Prop :=
  ∀ (count : BitVec 24) (s : State), (s.status.seqState = .fault → exec (.clearCmd count) s = .next s) ∧
    (s.status.seqState ≠ .fault →
    (s.status.cfgOk = true → exec (.clearCmd count) s = .next { s with
      srcSel := .zero count.toNat
      zeroCursor := 0
      upc := 0x000#10
      status := { s.status with seqState := .run, done := false, cause := .none } }) ∧
    (s.status.cfgOk = false →
      exec (.clearCmd count) s = .next { s with status := { s.status with cause := .notConfigured } }))

/-- R324: every command is ignored while SEQ_STATE = FAULT. -/
def Obligations.CommandsAreIgnoredWhileFaulted : Prop :=
  ∀ s : State, s.status.seqState = .fault →
    exec .initCmd s = .next s ∧ exec .showCmd s = .next s ∧ (∀ count, exec (.clearCmd count) s = .next s) ∧
    ∀ w : Word32, s.hostAccess (.write .word 0x9#4 w) = .next s

/-- R50: what a read of each register returns, and that a read changes nothing of the encoder. That a read of CNT, PER, CMPA,
CMPB, T1, T2 and T3 shows their low 32 bits, and of NBITS the low 8, is the model's choice where they are wider (log 6). -/
def Obligations.RegisterReads : Prop :=
  ∀ s : State,
    (∀ idx, s.hostAccess (.read .word idx) =
      .next { s with env := { s.env with hostReads := s.env.hostReads ++ [(idx, s.regRead idx)] } }) ∧
    (s.regRead 0x0#4).toNat = 2 + s.timer.en.toNat ∧
    (s.regRead 0x1#4).toNat = s.timer.cnt % 2 ^ 32 ∧
    (s.regRead 0x2#4).toNat = s.timer.per % 2 ^ 32 ∧
    (s.regRead 0x3#4).toNat = s.timer.cmpa % 2 ^ 32 ∧
    (s.regRead 0x4#4).toNat = s.timer.cmpb % 2 ^ 32 ∧
    (s.regRead 0x5#4).toNat = s.timer.ovf.toNat + 2 * s.timer.ma.toNat + 4 * s.timer.mb.toNat ∧
    s.regRead 0x6#4 = s.port ∧
    (s.params.pin < s.params.portW → s.params.portW ≤ 32 → (s.regRead 0x7#4).toNat = 2 ^ s.params.pin) ∧
    (s.regRead 0x8#4).toNat = (decide (s.status.seqState = .run)).toNat + 2 * s.status.cfgOk.toNat +
      4 * s.status.done.toNat + 8 * (decide (s.status.seqState = .fault)).toNat + 16 * s.status.cause.code.toNat ∧
    s.regRead 0x9#4 = 0#32 ∧
    (s.regRead 0xA#4).toNat = (8 + s.params.xtra) % 256 + 256 * s.params.intTolerant.toNat ∧
    (s.regRead 0xB#4).toNat = s.params.t1 % 2 ^ 32 ∧
    (s.regRead 0xC#4).toNat = s.params.t2 % 2 ^ 32 ∧
    (s.regRead 0xD#4).toNat = s.params.t3 % 2 ^ 32 ∧
    s.regRead 0xE#4 = 0#32 ∧ s.regRead 0xF#4 = 0#32

/-- R50: what a write of each register but HCMD changes. That a 32-bit word written to TMR_PER, TMR_CMPA or TMR_CMPB clears the
register's bits from 32 up where CNT_W is above 32 is the model's choice (log 6). -/
def Obligations.RegisterWrites : Prop :=
  ∀ (s : State) (v : Word32),
    s.hostAccess (.write .word 0x0#4 v) = .next { s with timer := { s.timer with en := v.getLsbD 0 } } ∧
    s.hostAccess (.write .word 0x2#4 v) =
      .next { s with timer := { s.timer with per := v.toNat % 2 ^ s.params.cntW } } ∧
    s.hostAccess (.write .word 0x3#4 v) =
      .next { s with timer := { s.timer with cmpa := v.toNat % 2 ^ s.params.cntW } } ∧
    s.hostAccess (.write .word 0x4#4 v) =
      .next { s with timer := { s.timer with cmpb := v.toNat % 2 ^ s.params.cntW } } ∧
    s.hostAccess (.write .word 0x5#4 v) = .next { s with timer := { s.timer with
      ovf := if v.getLsbD 0 then false else s.timer.ovf
      ma := if v.getLsbD 1 then false else s.timer.ma
      mb := if v.getLsbD 2 then false else s.timer.mb } } ∧
    (∃ x : PortWord, x.toNat = v.toNat % 2 ^ s.params.portW ∧
      s.hostAccess (.write .word 0x6#4 v) = .next { s with port := x, trace := s.trace ++ [(s.t, x)] }) ∧
    (∀ idx, idx ∈ [0x1#4, 0x7#4, 0x8#4, 0xA#4, 0xB#4, 0xC#4, 0xD#4, 0xE#4, 0xF#4] →
      s.hostAccess (.write .word idx v) = .next s)

/-- R86: an access narrower than a word is refused. -/
def Obligations.NarrowHostAccessIsRefused : Prop :=
  ∀ (s : State) (w : AccessWidth) (idx : BitVec 4) (v : Word32), w ≠ .word →
    s.hostAccess (.read w idx) = .refused .narrowHostAccess ∧
    s.hostAccess (.write w idx v) = .refused .narrowHostAccess

/-! ## Faults, and rules over all instructions -/

/-- R404: which micro-ops read an unwritten register, that these raise UNWRITTEN_READ and no others do, and where the registers
become unwritten. -/
def Obligations.ExactlyTheseReadsFault : Prop :=
  (∀ p : Params, (State.resetOf p).regs = ⟨none, none, none, none, none, none, none, none⟩) ∧
  (∀ s s' : State, exec .endok s = .next s' ∨ exec .endab s = .next s' →
    s'.regs = ⟨none, none, none, none, none, none, none, none⟩) ∧
  ∀ (i : Instr) (s s' : State), s.status.cause ≠ .unwrittenRead → exec i s = .next s' →
    (s'.status.cause = .unwrittenRead ↔
      (i = .pwh ∧ s.regs.hi = none) ∨ (i = .pwl ∧ s.regs.lo = none) ∨ (i = .rsi ∧ s.regs.sie = none) ∨
      (i = .wsel ∧ s.regs.b = none) ∨ (i = .shl ∧ (s.regs.b = none ∨ s.regs.i = none)) ∨
      (∃ tgt, i = .bnz tgt ∧ s.regs.i = none) ∨ (i = .ret ∧ s.regs.lr = none) ∨
      (∃ tgt, i = .bf tgt ∧ s.regs.f = none) ∨ (i = .dlchk ∧ s.regs.d = none)) ∧
    (s'.status.cause = .unwrittenRead →
      s' = { s with status := { s.status with seqState := .fault, done := false, cause := .unwrittenRead } })

/-- R41 to R48: which micro-ops write each sequencer register, the end of a frame apart, which makes all unwritten (R44). -/
def Obligations.WhoWritesTheSequencerRegisters : Prop :=
  ∀ (i : Instr) (s s' : State), exec i s = .next s' → i ≠ .endok → i ≠ .endab →
    (s'.regs.b ≠ s.regs.b → (∃ ch, i = .srcld ch) ∨ i = .srcadv ∨ i = .shl) ∧
    (s'.regs.i ≠ s.regs.i → (∃ n, i = .ldbits n) ∨ i = .shl) ∧
    (s'.regs.f ≠ s.regs.f → i = .srchas ∨ i = .dlchk) ∧
    (s'.regs.hi ≠ s.regs.hi ∨ s'.regs.lo ≠ s.regs.lo → i = .masks) ∧
    (s'.regs.lr ≠ s.regs.lr → ∃ tgt, i = .call tgt) ∧
    (s'.regs.d ≠ s.regs.d → i = .dlrst ∨ i = .dlchk) ∧
    (s'.regs.sie ≠ s.regs.sie → i = .cli) ∧
    (s'.ie ≠ s.ie → i = .cli ∨ i = .rsi) ∧
    (s'.lastMark ≠ s.lastMark → i = .pgmark)

/-- R98: no step of any agent writes the micro-ROM. That no step writes the parameters either is the model's form of R30: it
holds them in State (log 1). -/
def Obligations.RomAndParametersNeverChange : Prop :=
  ∀ s s' : State, step s = .next s' → s'.rom = s.rom ∧ s'.params = s.params

/-- R310: the host takes no step while a frame runs. Short of a reset, no access of its queue is taken, no read is answered,
its source is not prepared anew, and no command changes CFG_OK. -/
def Obligations.HostIsBlockedWhileRunning : Prop :=
  ∀ s s' : State, s.status.seqState = .run → s.nextTurn ≠ .reset → step s = .next s' →
    s'.env.hostQueue = s.env.hostQueue ∧ s'.env.hostReads = s.env.hostReads ∧ s'.status.cfgOk = s.status.cfgOk ∧
    (∀ src, s.nextTurn = .prepare src → s'.env.hostSource = s.env.hostSource)

/-- R410: a preemption happens only while the sequencer runs with IE = 1, and during it the sequencer takes no step: only the
timer, time and the environment move. That a preemption offered at another time is passed is the model's choice (log 11), and
so is the count that holds one in progress (log 14). -/
def Obligations.PreemptionOnlyDelaysTheSequencer : Prop :=
  (∀ (s : State) (d : Nat), s.nextTurn = .preempt d → s.status.seqState ≠ .run ∨ s.ie = false →
    step s = .next { s with env := { s.env with turns := s.env.turns.tail } }) ∧
  (∀ (s : State) (d : Nat), s.nextTurn = .preempt d → s.status.seqState = .run → s.ie = true → s.env.preempt = 0 →
    step s = .next { s with env := { s.env with turns := s.env.turns.tail, preempt := d } }) ∧
  (∀ s s' : State, s.status.seqState = .run → 0 < s.env.preempt → s.nextTurn ≠ .reset → step s = .next s' →
    (s'.env.preempt = s.env.preempt ∨ s'.env.preempt + 1 = s.env.preempt) ∧
    ∃ tm t env, s' = { s with timer := tm, t := t, env := env })

/-- R150 and R412. A tick's turn always ticks. The count of ticks against LAT_MAX (the model's own field, log 12) is 0 after a
tick before which the sequencer was not enabled and after the sequencer's step, goes up by 1 with every tick while it is
enabled and not preempted, and no other turn but a reset changes it. In a run that follows S(L), from where the count is 0,
at most LAT_MAX ticks, preempted ones left out, come while the sequencer is enabled and has not stepped; and time goes on
without bound. -/
def Obligations.ScheduleKeepsItsBound : Prop :=
  (∀ s : State, s.nextTurn = .tick → ∃ env, step s = .next { s with t := s.t + 1, timer := s.tick.timer, env := env } ∧
    env.lat = if s.env.preempt = 0 then (if s.enabled then s.env.lat + 1 else 0) else s.env.lat) ∧
  (∀ s s' : State, s.nextTurn = .seq → s.status.seqState = .run → s.env.preempt = 0 → step s = .next s' →
    s'.t = s.t ∧ s'.env.lat = 0) ∧
  (∀ s s' : State, s.nextTurn ≠ .tick → s.nextTurn ≠ .reset →
    (s.nextTurn = .seq → s.status.seqState ≠ .run ∨ s.env.preempt ≠ 0) → step s = .next s' →
    s'.t = s.t ∧ s'.env.lat = s.env.lat) ∧
  ∀ (choice : Nat → Turn) (s : State), s.FollowsSchedule choice →
    (∀ (i k : Nat) (x : State), s.runWith choice i = .next x → x.env.lat = 0 →
      (∀ j z, i ≤ j → j < i + k → s.runWith choice j = .next z → z.enabled = true ∧
        (z.offer (choice j)).nextTurn ≠ .reset ∧ ((z.offer (choice j)).nextTurn = .seq → 0 < z.env.preempt)) →
      (List.range' i k).countP (s.unpreemptedTick choice) ≤ x.params.latMax) ∧
    ∀ T : Nat, ∃ n x, s.runWith choice n = .next x ∧ T ≤ x.t

/-- R402 and R324: only a reset leaves FAULT, and until then the status and the sequencer stay as they are. That IE stays too is
row I22 of 93_implementation_defined.md for the encoder's own steps; that the host system does not change it either is the
model's choice (log 23). -/
def Obligations.OnlyResetLeavesFault : Prop :=
  ∀ s s' : State, s.status.seqState = .fault → step s = .next s' →
    (s.nextTurn ≠ .reset → s'.status = s.status ∧ s'.upc = s.upc ∧ s'.regs = s.regs ∧ s'.ie = s.ie ∧
      s'.lastMark = s.lastMark) ∧
    (s.nextTurn = .reset → s'.status.seqState = .idle)

/-- R450: a later reset sets every piece of state to its reset value, keeps t and the trace, and appends (t, PORT_INIT). The
model's own: that a reset turn while t is still 0 appends the event too, where R450 speaks of r > 0; that the ROM, the instance
and the environment's pending inputs stay and a preemption ends (log 16); and that the ZERO cursor becomes 0 (log 9). -/
def Obligations.LaterResetKeepsTimeAndTrace : Prop :=
  ∀ s : State, s.nextTurn = .reset →
    step s = .next { s with
      timer := ⟨0, 0, 0, 0, false, false, false, false⟩
      port := s.params.portInit
      regs := ⟨none, none, none, none, none, none, none, none⟩
      upc := 0x000#10
      status := ⟨.idle, false, false, .none⟩
      lastMark := none
      ie := s.params.ieInit
      srcSel := .host
      zeroCursor := 0
      trace := s.trace ++ [(s.t, s.params.portInit)]
      env := { s.env with turns := s.env.turns.tail, lat := 0, preempt := 0 } }

/-- R60 and R172: the port changes by an event of the trace alone, of the time it happens, and the trace only grows, by one
event at a time. -/
def Obligations.PortChangesAreInTheTrace : Prop :=
  ∀ s s' : State, step s = .next s' →
    (s'.port = s.port ∧ s'.trace = s.trace) ∨
    (s'.t = s.t ∧ ∃ v, s'.port = v ∧ s'.trace = s.trace ++ [(s.t, v)])

/-- R60 and R39: in every state of the invariant, the level of the line now is bit PIN of PORT, and its level at a time past
is what it was then: a step changes no level before its own time. -/
def Obligations.LineLevelIsThePinOfThePort : Prop :=
  ∀ s s' : State, s.Inv → s.lineLevelAt s.t = s.port.getLsbD s.params.pin ∧
    (step s = .next s' → ∀ τ, τ < s.t → s'.lineLevelAt τ = s.lineLevelAt τ)

/-! ## The reference micro-ROM -/

/-- The invariant of a conforming instance holds after reset. -/
def Obligations.ConformingInstanceStartsOnListing : Prop :=
  ∀ p : Params, p.wf = true → (State.resetOf p).OnListing

/-- R408: under the reference ROM no fault can happen: every step of a conforming instance keeps SEQ_STATE out of FAULT, every
register written before it is read, and control within 0x000 to 0x029. -/
def Obligations.ReferenceRomNeverFaults : Prop :=
  ∀ s s' : State, s.OnListing → step s = .next s' → s'.OnListing

/-- R298 and R302: when a frame of a conforming instance ends, by ENDOK or ENDAB, the line is low, the timer is stopped and the
sequencer registers are unwritten, with DONE and CAUSE as the two ends have them. -/
def Obligations.FrameEndsWithTheLineLow : Prop :=
  ∀ s s' : State, s.OnListing → s.status.seqState = .run → s.nextTurn ≠ .reset → step s = .next s' →
    s'.status.seqState = .idle →
    s'.port.getLsbD s'.params.pin = false ∧ s'.timer.en = false ∧
    s'.regs = ⟨none, none, none, none, none, none, none, none⟩ ∧ s'.trace = s.trace ∧
    ((s'.status.done = true ∧ s'.status.cause = .none ∧ s.upc = 0x01C#10) ∨
     (s'.status.done = false ∧ s'.status.cause = .deadlineAbort ∧ s.upc = 0x020#10))

/-- R204 and R230: one bit under the ideal schedule. From the WAITF OVF that its boundary enables at t, the line rises at t and
falls at t + T(b), b being bit 7 of B. With bits left, the next bit's WAITF OVF is enabled at t + PER; after the last bit the
routine stands at its RET with the slot's tail still to run (R206). That an empty list of choices stands for the ideal schedule
is the model's default (log 10). -/
def Obligations.BitIsOnePulseOfItsSlot : Prop :=
  ∀ (s : State) (b i : Byte) (hi lo : PortWord), s.IdealRun → s.TimerRunning → s.upc = 0x022#10 → s.timer.ovf = true →
    s.regs.b = some b → s.regs.i = some i → s.regs.hi = some hi → s.regs.lo = some lo →
    (i ≠ 1#8 → ∃ s', Host.Core.run Sys2Proof.core (7 + s.params.perCfg) s = .next s' ∧
      s'.IdealRun ∧ s'.TimerRunning ∧ s'.params = s.params ∧ s'.upc = 0x022#10 ∧ s'.timer.ovf = true ∧
      s'.t = s.t + s.params.perCfg ∧ s'.port = lo ∧
      s'.trace = s.trace ++ [(s.t, hi), (s.t + s.params.highTicks (b.getLsbD 7), lo)] ∧
      s'.regs = { s.regs with b := some (b <<< 1), i := some (i - 1) }) ∧
    (i = 1#8 → ∃ s', Host.Core.run Sys2Proof.core (7 + s.params.highTicks (b.getLsbD 7)) s = .next s' ∧
      s'.IdealRun ∧ s'.TimerRunning ∧ s'.params = s.params ∧ s'.upc = 0x029#10 ∧
      s'.t = s.t + s.params.highTicks (b.getLsbD 7) ∧ s'.port = lo ∧
      s'.trace = s.trace ++ [(s.t, hi), (s.t + s.params.highTicks (b.getLsbD 7), lo)] ∧
      s'.regs = { s.regs with b := some (b <<< 1), i := some 0#8 })

/-- R226, R228 and R230: the WRITE_BITS routine under the ideal schedule. Entered at 0x021 with a byte in B and a return address
in LR, it returns there after NBITS pulses of the byte, most significant bit first and 0 bits after the eighth, one slot of PER
ticks each, the first at the next period boundary. That an empty list of choices stands for the ideal schedule is the model's
default (log 10). -/
def Obligations.WriteBitsSendsTheByteMsbFirst : Prop :=
  ∀ (s : State) (v : Byte) (hi lo : PortWord) (ra : UAddr) (o : Nat), s.IdealRun → s.TimerRunning → s.upc = 0x021#10 →
    s.regs.b = some v → s.regs.hi = some hi → s.regs.lo = some lo → s.regs.lr = some ra →
    s.timer.cnt < s.timer.per → o = (if s.timer.ovf then s.t else s.t + (s.timer.per - s.timer.cnt)) →
    ∃ k s', Host.Core.run Sys2Proof.core k s = .next s' ∧ s'.IdealRun ∧ s'.TimerRunning ∧ s'.upc = ra ∧
      s'.regs = { s.regs with b := some (v <<< s.params.nbits), i := some 0#8 } ∧ s'.port = lo ∧
      s'.trace = s.trace ++ pulseTrain s.params hi lo o (msbFirst v s.params.nbits) ∧
      s'.trace.getLast? = some (s'.t, lo)

/-! ## The assembler -/

/-- R146: each pseudo-instruction assembles to the one micro-op it stands for. That B takes every operand JMP takes, a `0x`
micro-address too, is the model's choice (log 22): R146 gives `B label`. -/
def Obligations.PseudoInstructionsExpand : Prop :=
  ∀ (nbits : Nat) (labels : List (Token × Nat)) (lab : Option Token),
    assembleLine nbits labels ⟨lab, "WAITOVF".toList, none⟩ = .ok (.waitf 0#2) ∧
    assembleLine nbits labels ⟨lab, "WAITMA".toList, none⟩ = .ok (.waitf 1#2) ∧
    assembleLine nbits labels ⟨lab, "WAITMB".toList, none⟩ = .ok (.waitf 2#2) ∧
    assembleLine nbits labels ⟨lab, "END".toList, none⟩ = .ok .endok ∧
    (∀ o, assembleLine nbits labels ⟨lab, "B".toList, some o⟩ = assembleLine nbits labels ⟨lab, "JMP".toList, some o⟩)
end

