-- ==== Sys2Proof/Laws/Decode.lean ====
section
/-! SUPPORT. The bit fields of code words as arithmetic, and that the fields of a word put together are its parts. -/

namespace Sys2Proof

theorem opcField_toNat (w : Word16) : (opcField w).toNat = w.toNat / 1024 := by
  simp [opcField, BitVec.extractLsb'_toNat, Nat.shiftRight_eq_div_pow]; omega
theorem argField_toNat (w : Word16) : (argField w).toNat = w.toNat % 1024 := by
  simp [argField]
theorem append_toNat {n m : Nat} (a : BitVec n) (b : BitVec m) : (a ++ b).toNat = a.toNat * 2 ^ m + b.toNat := by
  rw [BitVec.toNat_append, ← Nat.shiftLeft_add_eq_or_of_lt b.isLt, Nat.shiftLeft_eq]
theorem uop_toNat (opc : BitVec 6) (arg : BitVec 10) : BitVec.toNat (w := 16) (opc ++ arg) = opc.toNat * 1024 + arg.toNat :=
  append_toNat opc arg
theorem opcField_append (opc : BitVec 6) (arg : BitVec 10) : opcField (opc ++ arg) = opc := by
  apply BitVec.eq_of_toNat_eq; have := arg.isLt; rw [opcField_toNat, uop_toNat]; omega
theorem argField_append (opc : BitVec 6) (arg : BitVec 10) : argField (opc ++ arg) = arg := by
  apply BitVec.eq_of_toNat_eq; have := arg.isLt; rw [argField_toNat, uop_toNat]; omega
theorem append_fields (w : Word16) : (opcField w ++ argField w : BitVec 16) = w := by
  apply BitVec.eq_of_toNat_eq; rw [uop_toNat, opcField_toNat, argField_toNat]; omega
theorem opField_toNat (w : Word32) : (opField w).toNat = w.toNat % 16 := by simp [opField]
theorem rsvField_toNat (w : Word32) : (rsvField w).toNat = w.toNat / 16 % 16 := by
  simp [rsvField, Nat.shiftRight_eq_div_pow]
theorem countField_toNat (w : Word32) : (countField w).toNat = w.toNat / 256 := by
  simp [countField, Nat.shiftRight_eq_div_pow]; omega
theorem hcmd_toNat (count : BitVec 24) (op : BitVec 4) :
    BitVec.toNat (w := 32) (count ++ 0#4 ++ op) = count.toNat * 256 + op.toNat := by
  have h := append_toNat (count ++ 0#4) op
  have h' := append_toNat count 0#4
  have h0 : (0#4).toNat = 0 := rfl
  refine h.trans ?_
  omega
theorem opField_hcmd (count : BitVec 24) (op : BitVec 4) : opField (count ++ 0#4 ++ op) = op := by
  apply BitVec.eq_of_toNat_eq; have := op.isLt; rw [opField_toNat, hcmd_toNat]; omega
theorem rsvField_hcmd (count : BitVec 24) (op : BitVec 4) : rsvField (count ++ 0#4 ++ op) = 0#4 := by
  apply BitVec.eq_of_toNat_eq; have := op.isLt; rw [rsvField_toNat, hcmd_toNat]; simp; omega
theorem countField_hcmd (count : BitVec 24) (op : BitVec 4) : countField (count ++ 0#4 ++ op) = count := by
  apply BitVec.eq_of_toNat_eq; have := op.isLt; rw [countField_toNat, hcmd_toNat]; omega

end Sys2Proof
end

