-- ==== Sys2Proof/Laws/State.lean ====
section
/-! SUPPORT. One lemma per field per setter of the state, each true by rfl. -/

namespace Sys2Proof.Machine

section
variable (s : State) (x : Rom)
@[simp] theorem State.setRom_params : (s.setRom x).params = s.params := rfl
@[simp] theorem State.setRom_rom : (s.setRom x).rom = x := rfl
@[simp] theorem State.setRom_timer : (s.setRom x).timer = s.timer := rfl
@[simp] theorem State.setRom_port : (s.setRom x).port = s.port := rfl
@[simp] theorem State.setRom_regs : (s.setRom x).regs = s.regs := rfl
@[simp] theorem State.setRom_upc : (s.setRom x).upc = s.upc := rfl
@[simp] theorem State.setRom_status : (s.setRom x).status = s.status := rfl
@[simp] theorem State.setRom_lastMark : (s.setRom x).lastMark = s.lastMark := rfl
@[simp] theorem State.setRom_ie : (s.setRom x).ie = s.ie := rfl
@[simp] theorem State.setRom_srcSel : (s.setRom x).srcSel = s.srcSel := rfl
@[simp] theorem State.setRom_zeroCursor : (s.setRom x).zeroCursor = s.zeroCursor := rfl
@[simp] theorem State.setRom_trace : (s.setRom x).trace = s.trace := rfl
@[simp] theorem State.setRom_t : (s.setRom x).t = s.t := rfl
@[simp] theorem State.setRom_env : (s.setRom x).env = s.env := rfl
end

section
variable (s : State) (x : Timer)
@[simp] theorem State.setTimer_params : (s.setTimer x).params = s.params := rfl
@[simp] theorem State.setTimer_rom : (s.setTimer x).rom = s.rom := rfl
@[simp] theorem State.setTimer_timer : (s.setTimer x).timer = x := rfl
@[simp] theorem State.setTimer_port : (s.setTimer x).port = s.port := rfl
@[simp] theorem State.setTimer_regs : (s.setTimer x).regs = s.regs := rfl
@[simp] theorem State.setTimer_upc : (s.setTimer x).upc = s.upc := rfl
@[simp] theorem State.setTimer_status : (s.setTimer x).status = s.status := rfl
@[simp] theorem State.setTimer_lastMark : (s.setTimer x).lastMark = s.lastMark := rfl
@[simp] theorem State.setTimer_ie : (s.setTimer x).ie = s.ie := rfl
@[simp] theorem State.setTimer_srcSel : (s.setTimer x).srcSel = s.srcSel := rfl
@[simp] theorem State.setTimer_zeroCursor : (s.setTimer x).zeroCursor = s.zeroCursor := rfl
@[simp] theorem State.setTimer_trace : (s.setTimer x).trace = s.trace := rfl
@[simp] theorem State.setTimer_t : (s.setTimer x).t = s.t := rfl
@[simp] theorem State.setTimer_env : (s.setTimer x).env = s.env := rfl
end

section
variable (s : State) (x : PortWord)
@[simp] theorem State.setPort_params : (s.setPort x).params = s.params := rfl
@[simp] theorem State.setPort_rom : (s.setPort x).rom = s.rom := rfl
@[simp] theorem State.setPort_timer : (s.setPort x).timer = s.timer := rfl
@[simp] theorem State.setPort_port : (s.setPort x).port = x := rfl
@[simp] theorem State.setPort_regs : (s.setPort x).regs = s.regs := rfl
@[simp] theorem State.setPort_upc : (s.setPort x).upc = s.upc := rfl
@[simp] theorem State.setPort_status : (s.setPort x).status = s.status := rfl
@[simp] theorem State.setPort_lastMark : (s.setPort x).lastMark = s.lastMark := rfl
@[simp] theorem State.setPort_ie : (s.setPort x).ie = s.ie := rfl
@[simp] theorem State.setPort_srcSel : (s.setPort x).srcSel = s.srcSel := rfl
@[simp] theorem State.setPort_zeroCursor : (s.setPort x).zeroCursor = s.zeroCursor := rfl
@[simp] theorem State.setPort_trace : (s.setPort x).trace = s.trace := rfl
@[simp] theorem State.setPort_t : (s.setPort x).t = s.t := rfl
@[simp] theorem State.setPort_env : (s.setPort x).env = s.env := rfl
end

section
variable (s : State) (x : SeqRegs)
@[simp] theorem State.setRegs_params : (s.setRegs x).params = s.params := rfl
@[simp] theorem State.setRegs_rom : (s.setRegs x).rom = s.rom := rfl
@[simp] theorem State.setRegs_timer : (s.setRegs x).timer = s.timer := rfl
@[simp] theorem State.setRegs_port : (s.setRegs x).port = s.port := rfl
@[simp] theorem State.setRegs_regs : (s.setRegs x).regs = x := rfl
@[simp] theorem State.setRegs_upc : (s.setRegs x).upc = s.upc := rfl
@[simp] theorem State.setRegs_status : (s.setRegs x).status = s.status := rfl
@[simp] theorem State.setRegs_lastMark : (s.setRegs x).lastMark = s.lastMark := rfl
@[simp] theorem State.setRegs_ie : (s.setRegs x).ie = s.ie := rfl
@[simp] theorem State.setRegs_srcSel : (s.setRegs x).srcSel = s.srcSel := rfl
@[simp] theorem State.setRegs_zeroCursor : (s.setRegs x).zeroCursor = s.zeroCursor := rfl
@[simp] theorem State.setRegs_trace : (s.setRegs x).trace = s.trace := rfl
@[simp] theorem State.setRegs_t : (s.setRegs x).t = s.t := rfl
@[simp] theorem State.setRegs_env : (s.setRegs x).env = s.env := rfl
end

section
variable (s : State) (x : UAddr)
@[simp] theorem State.setUpc_params : (s.setUpc x).params = s.params := rfl
@[simp] theorem State.setUpc_rom : (s.setUpc x).rom = s.rom := rfl
@[simp] theorem State.setUpc_timer : (s.setUpc x).timer = s.timer := rfl
@[simp] theorem State.setUpc_port : (s.setUpc x).port = s.port := rfl
@[simp] theorem State.setUpc_regs : (s.setUpc x).regs = s.regs := rfl
@[simp] theorem State.setUpc_upc : (s.setUpc x).upc = x := rfl
@[simp] theorem State.setUpc_status : (s.setUpc x).status = s.status := rfl
@[simp] theorem State.setUpc_lastMark : (s.setUpc x).lastMark = s.lastMark := rfl
@[simp] theorem State.setUpc_ie : (s.setUpc x).ie = s.ie := rfl
@[simp] theorem State.setUpc_srcSel : (s.setUpc x).srcSel = s.srcSel := rfl
@[simp] theorem State.setUpc_zeroCursor : (s.setUpc x).zeroCursor = s.zeroCursor := rfl
@[simp] theorem State.setUpc_trace : (s.setUpc x).trace = s.trace := rfl
@[simp] theorem State.setUpc_t : (s.setUpc x).t = s.t := rfl
@[simp] theorem State.setUpc_env : (s.setUpc x).env = s.env := rfl
end

section
variable (s : State) (x : Status)
@[simp] theorem State.setStatus_params : (s.setStatus x).params = s.params := rfl
@[simp] theorem State.setStatus_rom : (s.setStatus x).rom = s.rom := rfl
@[simp] theorem State.setStatus_timer : (s.setStatus x).timer = s.timer := rfl
@[simp] theorem State.setStatus_port : (s.setStatus x).port = s.port := rfl
@[simp] theorem State.setStatus_regs : (s.setStatus x).regs = s.regs := rfl
@[simp] theorem State.setStatus_upc : (s.setStatus x).upc = s.upc := rfl
@[simp] theorem State.setStatus_status : (s.setStatus x).status = x := rfl
@[simp] theorem State.setStatus_lastMark : (s.setStatus x).lastMark = s.lastMark := rfl
@[simp] theorem State.setStatus_ie : (s.setStatus x).ie = s.ie := rfl
@[simp] theorem State.setStatus_srcSel : (s.setStatus x).srcSel = s.srcSel := rfl
@[simp] theorem State.setStatus_zeroCursor : (s.setStatus x).zeroCursor = s.zeroCursor := rfl
@[simp] theorem State.setStatus_trace : (s.setStatus x).trace = s.trace := rfl
@[simp] theorem State.setStatus_t : (s.setStatus x).t = s.t := rfl
@[simp] theorem State.setStatus_env : (s.setStatus x).env = s.env := rfl
end

section
variable (s : State) (x : Option Nat)
@[simp] theorem State.setLastMark_params : (s.setLastMark x).params = s.params := rfl
@[simp] theorem State.setLastMark_rom : (s.setLastMark x).rom = s.rom := rfl
@[simp] theorem State.setLastMark_timer : (s.setLastMark x).timer = s.timer := rfl
@[simp] theorem State.setLastMark_port : (s.setLastMark x).port = s.port := rfl
@[simp] theorem State.setLastMark_regs : (s.setLastMark x).regs = s.regs := rfl
@[simp] theorem State.setLastMark_upc : (s.setLastMark x).upc = s.upc := rfl
@[simp] theorem State.setLastMark_status : (s.setLastMark x).status = s.status := rfl
@[simp] theorem State.setLastMark_lastMark : (s.setLastMark x).lastMark = x := rfl
@[simp] theorem State.setLastMark_ie : (s.setLastMark x).ie = s.ie := rfl
@[simp] theorem State.setLastMark_srcSel : (s.setLastMark x).srcSel = s.srcSel := rfl
@[simp] theorem State.setLastMark_zeroCursor : (s.setLastMark x).zeroCursor = s.zeroCursor := rfl
@[simp] theorem State.setLastMark_trace : (s.setLastMark x).trace = s.trace := rfl
@[simp] theorem State.setLastMark_t : (s.setLastMark x).t = s.t := rfl
@[simp] theorem State.setLastMark_env : (s.setLastMark x).env = s.env := rfl
end

section
variable (s : State) (x : Bool)
@[simp] theorem State.setIe_params : (s.setIe x).params = s.params := rfl
@[simp] theorem State.setIe_rom : (s.setIe x).rom = s.rom := rfl
@[simp] theorem State.setIe_timer : (s.setIe x).timer = s.timer := rfl
@[simp] theorem State.setIe_port : (s.setIe x).port = s.port := rfl
@[simp] theorem State.setIe_regs : (s.setIe x).regs = s.regs := rfl
@[simp] theorem State.setIe_upc : (s.setIe x).upc = s.upc := rfl
@[simp] theorem State.setIe_status : (s.setIe x).status = s.status := rfl
@[simp] theorem State.setIe_lastMark : (s.setIe x).lastMark = s.lastMark := rfl
@[simp] theorem State.setIe_ie : (s.setIe x).ie = x := rfl
@[simp] theorem State.setIe_srcSel : (s.setIe x).srcSel = s.srcSel := rfl
@[simp] theorem State.setIe_zeroCursor : (s.setIe x).zeroCursor = s.zeroCursor := rfl
@[simp] theorem State.setIe_trace : (s.setIe x).trace = s.trace := rfl
@[simp] theorem State.setIe_t : (s.setIe x).t = s.t := rfl
@[simp] theorem State.setIe_env : (s.setIe x).env = s.env := rfl
end

section
variable (s : State) (x : SrcSel)
@[simp] theorem State.setSrcSel_params : (s.setSrcSel x).params = s.params := rfl
@[simp] theorem State.setSrcSel_rom : (s.setSrcSel x).rom = s.rom := rfl
@[simp] theorem State.setSrcSel_timer : (s.setSrcSel x).timer = s.timer := rfl
@[simp] theorem State.setSrcSel_port : (s.setSrcSel x).port = s.port := rfl
@[simp] theorem State.setSrcSel_regs : (s.setSrcSel x).regs = s.regs := rfl
@[simp] theorem State.setSrcSel_upc : (s.setSrcSel x).upc = s.upc := rfl
@[simp] theorem State.setSrcSel_status : (s.setSrcSel x).status = s.status := rfl
@[simp] theorem State.setSrcSel_lastMark : (s.setSrcSel x).lastMark = s.lastMark := rfl
@[simp] theorem State.setSrcSel_ie : (s.setSrcSel x).ie = s.ie := rfl
@[simp] theorem State.setSrcSel_srcSel : (s.setSrcSel x).srcSel = x := rfl
@[simp] theorem State.setSrcSel_zeroCursor : (s.setSrcSel x).zeroCursor = s.zeroCursor := rfl
@[simp] theorem State.setSrcSel_trace : (s.setSrcSel x).trace = s.trace := rfl
@[simp] theorem State.setSrcSel_t : (s.setSrcSel x).t = s.t := rfl
@[simp] theorem State.setSrcSel_env : (s.setSrcSel x).env = s.env := rfl
end

section
variable (s : State) (x : Nat)
@[simp] theorem State.setZeroCursor_params : (s.setZeroCursor x).params = s.params := rfl
@[simp] theorem State.setZeroCursor_rom : (s.setZeroCursor x).rom = s.rom := rfl
@[simp] theorem State.setZeroCursor_timer : (s.setZeroCursor x).timer = s.timer := rfl
@[simp] theorem State.setZeroCursor_port : (s.setZeroCursor x).port = s.port := rfl
@[simp] theorem State.setZeroCursor_regs : (s.setZeroCursor x).regs = s.regs := rfl
@[simp] theorem State.setZeroCursor_upc : (s.setZeroCursor x).upc = s.upc := rfl
@[simp] theorem State.setZeroCursor_status : (s.setZeroCursor x).status = s.status := rfl
@[simp] theorem State.setZeroCursor_lastMark : (s.setZeroCursor x).lastMark = s.lastMark := rfl
@[simp] theorem State.setZeroCursor_ie : (s.setZeroCursor x).ie = s.ie := rfl
@[simp] theorem State.setZeroCursor_srcSel : (s.setZeroCursor x).srcSel = s.srcSel := rfl
@[simp] theorem State.setZeroCursor_zeroCursor : (s.setZeroCursor x).zeroCursor = x := rfl
@[simp] theorem State.setZeroCursor_trace : (s.setZeroCursor x).trace = s.trace := rfl
@[simp] theorem State.setZeroCursor_t : (s.setZeroCursor x).t = s.t := rfl
@[simp] theorem State.setZeroCursor_env : (s.setZeroCursor x).env = s.env := rfl
end

section
variable (s : State) (x : List (Nat × PortWord))
@[simp] theorem State.setTrace_params : (s.setTrace x).params = s.params := rfl
@[simp] theorem State.setTrace_rom : (s.setTrace x).rom = s.rom := rfl
@[simp] theorem State.setTrace_timer : (s.setTrace x).timer = s.timer := rfl
@[simp] theorem State.setTrace_port : (s.setTrace x).port = s.port := rfl
@[simp] theorem State.setTrace_regs : (s.setTrace x).regs = s.regs := rfl
@[simp] theorem State.setTrace_upc : (s.setTrace x).upc = s.upc := rfl
@[simp] theorem State.setTrace_status : (s.setTrace x).status = s.status := rfl
@[simp] theorem State.setTrace_lastMark : (s.setTrace x).lastMark = s.lastMark := rfl
@[simp] theorem State.setTrace_ie : (s.setTrace x).ie = s.ie := rfl
@[simp] theorem State.setTrace_srcSel : (s.setTrace x).srcSel = s.srcSel := rfl
@[simp] theorem State.setTrace_zeroCursor : (s.setTrace x).zeroCursor = s.zeroCursor := rfl
@[simp] theorem State.setTrace_trace : (s.setTrace x).trace = x := rfl
@[simp] theorem State.setTrace_t : (s.setTrace x).t = s.t := rfl
@[simp] theorem State.setTrace_env : (s.setTrace x).env = s.env := rfl
end

section
variable (s : State) (x : Nat)
@[simp] theorem State.setT_params : (s.setT x).params = s.params := rfl
@[simp] theorem State.setT_rom : (s.setT x).rom = s.rom := rfl
@[simp] theorem State.setT_timer : (s.setT x).timer = s.timer := rfl
@[simp] theorem State.setT_port : (s.setT x).port = s.port := rfl
@[simp] theorem State.setT_regs : (s.setT x).regs = s.regs := rfl
@[simp] theorem State.setT_upc : (s.setT x).upc = s.upc := rfl
@[simp] theorem State.setT_status : (s.setT x).status = s.status := rfl
@[simp] theorem State.setT_lastMark : (s.setT x).lastMark = s.lastMark := rfl
@[simp] theorem State.setT_ie : (s.setT x).ie = s.ie := rfl
@[simp] theorem State.setT_srcSel : (s.setT x).srcSel = s.srcSel := rfl
@[simp] theorem State.setT_zeroCursor : (s.setT x).zeroCursor = s.zeroCursor := rfl
@[simp] theorem State.setT_trace : (s.setT x).trace = s.trace := rfl
@[simp] theorem State.setT_t : (s.setT x).t = x := rfl
@[simp] theorem State.setT_env : (s.setT x).env = s.env := rfl
end

section
variable (s : State) (x : Env)
@[simp] theorem State.setEnv_params : (s.setEnv x).params = s.params := rfl
@[simp] theorem State.setEnv_rom : (s.setEnv x).rom = s.rom := rfl
@[simp] theorem State.setEnv_timer : (s.setEnv x).timer = s.timer := rfl
@[simp] theorem State.setEnv_port : (s.setEnv x).port = s.port := rfl
@[simp] theorem State.setEnv_regs : (s.setEnv x).regs = s.regs := rfl
@[simp] theorem State.setEnv_upc : (s.setEnv x).upc = s.upc := rfl
@[simp] theorem State.setEnv_status : (s.setEnv x).status = s.status := rfl
@[simp] theorem State.setEnv_lastMark : (s.setEnv x).lastMark = s.lastMark := rfl
@[simp] theorem State.setEnv_ie : (s.setEnv x).ie = s.ie := rfl
@[simp] theorem State.setEnv_srcSel : (s.setEnv x).srcSel = s.srcSel := rfl
@[simp] theorem State.setEnv_zeroCursor : (s.setEnv x).zeroCursor = s.zeroCursor := rfl
@[simp] theorem State.setEnv_trace : (s.setEnv x).trace = s.trace := rfl
@[simp] theorem State.setEnv_t : (s.setEnv x).t = s.t := rfl
@[simp] theorem State.setEnv_env : (s.setEnv x).env = x := rfl
end

/-! The same for the operations that set fixed parts of the state. -/

section
variable (s : State) 
@[simp] theorem State.advance_params : (s.advance).params = s.params := rfl
@[simp] theorem State.advance_rom : (s.advance).rom = s.rom := rfl
@[simp] theorem State.advance_timer : (s.advance).timer = s.timer := rfl
@[simp] theorem State.advance_port : (s.advance).port = s.port := rfl
@[simp] theorem State.advance_regs : (s.advance).regs = s.regs := rfl
@[simp] theorem State.advance_upc : (s.advance).upc = s.upc + 1 := rfl
@[simp] theorem State.advance_status : (s.advance).status = s.status := rfl
@[simp] theorem State.advance_lastMark : (s.advance).lastMark = s.lastMark := rfl
@[simp] theorem State.advance_ie : (s.advance).ie = s.ie := rfl
@[simp] theorem State.advance_srcSel : (s.advance).srcSel = s.srcSel := rfl
@[simp] theorem State.advance_zeroCursor : (s.advance).zeroCursor = s.zeroCursor := rfl
@[simp] theorem State.advance_trace : (s.advance).trace = s.trace := rfl
@[simp] theorem State.advance_t : (s.advance).t = s.t := rfl
@[simp] theorem State.advance_env : (s.advance).env = s.env := rfl
end

section
variable (s : State) (tgt : UAddr)
@[simp] theorem State.jump_params : (s.jump tgt).params = s.params := rfl
@[simp] theorem State.jump_rom : (s.jump tgt).rom = s.rom := rfl
@[simp] theorem State.jump_timer : (s.jump tgt).timer = s.timer := rfl
@[simp] theorem State.jump_port : (s.jump tgt).port = s.port := rfl
@[simp] theorem State.jump_regs : (s.jump tgt).regs = s.regs := rfl
@[simp] theorem State.jump_upc : (s.jump tgt).upc = tgt := rfl
@[simp] theorem State.jump_status : (s.jump tgt).status = s.status := rfl
@[simp] theorem State.jump_lastMark : (s.jump tgt).lastMark = s.lastMark := rfl
@[simp] theorem State.jump_ie : (s.jump tgt).ie = s.ie := rfl
@[simp] theorem State.jump_srcSel : (s.jump tgt).srcSel = s.srcSel := rfl
@[simp] theorem State.jump_zeroCursor : (s.jump tgt).zeroCursor = s.zeroCursor := rfl
@[simp] theorem State.jump_trace : (s.jump tgt).trace = s.trace := rfl
@[simp] theorem State.jump_t : (s.jump tgt).t = s.t := rfl
@[simp] theorem State.jump_env : (s.jump tgt).env = s.env := rfl
end

section
variable (s : State) (v : PortWord)
@[simp] theorem State.portWrite_params : (s.portWrite v).params = s.params := rfl
@[simp] theorem State.portWrite_rom : (s.portWrite v).rom = s.rom := rfl
@[simp] theorem State.portWrite_timer : (s.portWrite v).timer = s.timer := rfl
@[simp] theorem State.portWrite_port : (s.portWrite v).port = v := rfl
@[simp] theorem State.portWrite_regs : (s.portWrite v).regs = s.regs := rfl
@[simp] theorem State.portWrite_upc : (s.portWrite v).upc = s.upc := rfl
@[simp] theorem State.portWrite_status : (s.portWrite v).status = s.status := rfl
@[simp] theorem State.portWrite_lastMark : (s.portWrite v).lastMark = s.lastMark := rfl
@[simp] theorem State.portWrite_ie : (s.portWrite v).ie = s.ie := rfl
@[simp] theorem State.portWrite_srcSel : (s.portWrite v).srcSel = s.srcSel := rfl
@[simp] theorem State.portWrite_zeroCursor : (s.portWrite v).zeroCursor = s.zeroCursor := rfl
@[simp] theorem State.portWrite_trace : (s.portWrite v).trace = s.trace ++ [(s.t, v)] := rfl
@[simp] theorem State.portWrite_t : (s.portWrite v).t = s.t := rfl
@[simp] theorem State.portWrite_env : (s.portWrite v).env = s.env := rfl
end

section
variable (s : State) (c : Cause)
@[simp] theorem State.raiseFault_params : (s.raiseFault c).params = s.params := rfl
@[simp] theorem State.raiseFault_rom : (s.raiseFault c).rom = s.rom := rfl
@[simp] theorem State.raiseFault_timer : (s.raiseFault c).timer = s.timer := rfl
@[simp] theorem State.raiseFault_port : (s.raiseFault c).port = s.port := rfl
@[simp] theorem State.raiseFault_regs : (s.raiseFault c).regs = s.regs := rfl
@[simp] theorem State.raiseFault_upc : (s.raiseFault c).upc = s.upc := rfl
@[simp] theorem State.raiseFault_status : (s.raiseFault c).status = { s.status with seqState := .fault, done := false, cause := c } := rfl
@[simp] theorem State.raiseFault_lastMark : (s.raiseFault c).lastMark = s.lastMark := rfl
@[simp] theorem State.raiseFault_ie : (s.raiseFault c).ie = s.ie := rfl
@[simp] theorem State.raiseFault_srcSel : (s.raiseFault c).srcSel = s.srcSel := rfl
@[simp] theorem State.raiseFault_zeroCursor : (s.raiseFault c).zeroCursor = s.zeroCursor := rfl
@[simp] theorem State.raiseFault_trace : (s.raiseFault c).trace = s.trace := rfl
@[simp] theorem State.raiseFault_t : (s.raiseFault c).t = s.t := rfl
@[simp] theorem State.raiseFault_env : (s.raiseFault c).env = s.env := rfl
end

section
variable (s : State) (done : Bool) (c : Cause)
@[simp] theorem State.endFrame_params : (s.endFrame done c).params = s.params := rfl
@[simp] theorem State.endFrame_rom : (s.endFrame done c).rom = s.rom := rfl
@[simp] theorem State.endFrame_timer : (s.endFrame done c).timer = s.timer := rfl
@[simp] theorem State.endFrame_port : (s.endFrame done c).port = s.port := rfl
@[simp] theorem State.endFrame_regs : (s.endFrame done c).regs = SeqRegs.unwritten := rfl
@[simp] theorem State.endFrame_upc : (s.endFrame done c).upc = s.upc := rfl
@[simp] theorem State.endFrame_status : (s.endFrame done c).status = { s.status with seqState := .idle, done := done, cause := c } := rfl
@[simp] theorem State.endFrame_lastMark : (s.endFrame done c).lastMark = s.lastMark := rfl
@[simp] theorem State.endFrame_ie : (s.endFrame done c).ie = s.ie := rfl
@[simp] theorem State.endFrame_srcSel : (s.endFrame done c).srcSel = s.srcSel := rfl
@[simp] theorem State.endFrame_zeroCursor : (s.endFrame done c).zeroCursor = s.zeroCursor := rfl
@[simp] theorem State.endFrame_trace : (s.endFrame done c).trace = s.trace := rfl
@[simp] theorem State.endFrame_t : (s.endFrame done c).t = s.t := rfl
@[simp] theorem State.endFrame_env : (s.endFrame done c).env = s.env := rfl
end

section
variable (s : State) (src : SrcSel)
@[simp] theorem State.startFrame_params : (s.startFrame src).params = s.params := rfl
@[simp] theorem State.startFrame_rom : (s.startFrame src).rom = s.rom := rfl
@[simp] theorem State.startFrame_timer : (s.startFrame src).timer = s.timer := rfl
@[simp] theorem State.startFrame_port : (s.startFrame src).port = s.port := rfl
@[simp] theorem State.startFrame_regs : (s.startFrame src).regs = s.regs := rfl
@[simp] theorem State.startFrame_upc : (s.startFrame src).upc = 0x000#10 := rfl
@[simp] theorem State.startFrame_status : (s.startFrame src).status = { s.status with seqState := .run, done := false, cause := .none } := rfl
@[simp] theorem State.startFrame_lastMark : (s.startFrame src).lastMark = s.lastMark := rfl
@[simp] theorem State.startFrame_ie : (s.startFrame src).ie = s.ie := rfl
@[simp] theorem State.startFrame_srcSel : (s.startFrame src).srcSel = src := rfl
@[simp] theorem State.startFrame_zeroCursor : (s.startFrame src).zeroCursor = s.zeroCursor := rfl
@[simp] theorem State.startFrame_trace : (s.startFrame src).trace = s.trace := rfl
@[simp] theorem State.startFrame_t : (s.startFrame src).t = s.t := rfl
@[simp] theorem State.startFrame_env : (s.startFrame src).env = s.env := rfl
end

end Sys2Proof.Machine
end

