-- ==== Sys2Proof/Laws/Ops.lean ====
section
/-! SUPPORT. One lemma per shared operation that says once everything it can do. The proofs cite these instead of unfolding
the operation. -/

namespace Sys2Proof.Machine

/-! The derived parameters. -/

/-- A value reduced to the port's width fits it. -/
theorem portBits_lt (p : Params) (v : Word32) : (p.portBits v).toNat < 2 ^ p.portW := by
  simp only [Params.portBits, BitVec.toNat_ofNat]
  exact lt_of_le_of_lt (Nat.mod_le _ _) (Nat.mod_lt _ (by positivity))

/-- A value reduced to the counter's width fits it. -/
theorem cntBits_lt (p : Params) (n : Nat) : p.cntBits n < 2 ^ p.cntW := Nat.mod_lt _ (by positivity)

/-! The micro-program counter. -/

@[simp] theorem branch_true (s : State) (tgt : UAddr) : s.branch true tgt = s.setUpc tgt := rfl
@[simp] theorem branch_false (s : State) (tgt : UAddr) : s.branch false tgt = s.setUpc (s.upc + 1) := rfl

/-- A branch sets upc, and nothing else, to the target or to the next word. -/
theorem branch_cases (s : State) (taken : Bool) (tgt : UAddr) :
    (taken = true ∧ s.branch taken tgt = s.setUpc tgt) ∨ (taken = false ∧ s.branch taken tgt = s.setUpc (s.upc + 1)) := by
  cases taken
  · exact .inr ⟨rfl, rfl⟩
  · exact .inl ⟨rfl, rfl⟩

/-! Reads of sequencer registers and of operands. -/

@[simp] theorem withWritten_none {α : Type} (s : State) (k : α → Result) :
    s.withWritten none k = .next (s.raiseFault .unwrittenRead) := rfl
@[simp] theorem withWritten_some {α : Type} (s : State) (v : α) (k : α → Result) : s.withWritten (some v) k = k v := rfl

/-- A read of a sequencer register faults where it is unwritten and goes on with its value where it is written. -/
theorem withWritten_next {α : Type} {s s' : State} {r : Option α} {k : α → Result} (h : s.withWritten r k = .next s') :
    (r = none ∧ s' = s.raiseFault .unwrittenRead) ∨ ∃ v, r = some v ∧ k v = .next s' := by
  cases r with
  | none => exact .inl ⟨rfl, by simpa using h.symm⟩
  | some v => exact .inr ⟨v, rfl, h⟩

@[simp] theorem waitUntil_true (s : State) : s.waitUntil true = .next s.advance := rfl
@[simp] theorem waitUntil_false (s : State) : s.waitUntil false = .next s := rfl

/-- A wait completes where its condition holds and is a poll that changes nothing where it does not. -/
theorem waitUntil_next {s s' : State} {c : Bool} (h : s.waitUntil c = .next s') :
    (c = true ∧ s' = s.advance) ∨ (c = false ∧ s' = s) := by
  cases c
  · exact .inr ⟨rfl, by simpa using h.symm⟩
  · exact .inl ⟨rfl, by simpa using h.symm⟩

@[simp] theorem flag_ovf (tm : Timer) : tm.flag 0#2 = some tm.ovf := rfl
@[simp] theorem flag_ma (tm : Timer) : tm.flag 1#2 = some tm.ma := rfl
@[simp] theorem flag_mb (tm : Timer) : tm.flag 2#2 = some tm.mb := rfl
@[simp] theorem flag_reserved (tm : Timer) : tm.flag 3#2 = none := rfl

/-- An operand of format UF selects a flag, or is the illegal one. -/
theorem withFlag_next {s s' : State} {flg : BitVec 2} {k : Bool → Result} (h : s.withFlag flg k = .next s') :
    (s.timer.flag flg = none ∧ s' = s.raiseFault .illegalUop) ∨ ∃ v, s.timer.flag flg = some v ∧ k v = .next s' := by
  unfold State.withFlag at h
  cases hf : s.timer.flag flg with
  | none => rw [hf] at h; exact .inl ⟨rfl, by simpa using h.symm⟩
  | some v => rw [hf] at h; exact .inr ⟨v, rfl, h⟩

/-- An operand of format UC selects a channel, or is the illegal one. -/
theorem withChannel_next {s s' : State} {ch : BitVec 2} {k : Result} (h : s.withChannel ch k = .next s') :
    (ch = 3#2 ∧ s' = s.raiseFault .illegalUop) ∨ (ch ≠ 3#2 ∧ k = .next s') := by
  unfold State.withChannel at h
  split at h
  · next hc => exact .inl ⟨hc, by simpa using h.symm⟩
  · next hc => exact .inr ⟨hc, h⟩

/-! Host commands. -/

/-- A command is ignored while FAULT, and carried out otherwise. -/
theorem unlessFaulted_cases (s : State) (k : State → State) :
    (s.status.seqState = .fault ∧ s.unlessFaulted k = s) ∨ (s.status.seqState ≠ .fault ∧ s.unlessFaulted k = k s) := by
  unfold State.unlessFaulted
  cases h : s.status.seqState
  · exact .inr ⟨by simp, rfl⟩
  · exact .inr ⟨by simp, rfl⟩
  · exact .inl ⟨rfl, rfl⟩

/-- SHOW and CLEAR start a frame, or are refused and change CAUSE only. -/
theorem startIfConfigured_cases (s : State) (k : State → State) :
    (s.status.cfgOk = true ∧ s.startIfConfigured k = k s) ∨
    (s.status.cfgOk = false ∧ s.startIfConfigured k = s.setStatus { s.status with cause := .notConfigured }) := by
  unfold State.startIfConfigured
  cases h : s.status.cfgOk
  · exact .inr ⟨rfl, rfl⟩
  · exact .inl ⟨rfl, rfl⟩

/-! The timer. -/

/-- A tick of a stopped timer changes nothing. -/
theorem tick_disabled (tm : Timer) (w : Nat) (h : tm.en = false) : tm.tick w = tm := by simp [Timer.tick, h]

/-- A tick of a running timer that does not reach PER. -/
theorem tick_count (tm : Timer) (w : Nat) (h : tm.en = true) (hn : (tm.cnt + 1) % 2 ^ w ≠ tm.per) :
    tm.tick w = { tm with
      cnt := (tm.cnt + 1) % 2 ^ w
      ma := tm.ma || decide ((tm.cnt + 1) % 2 ^ w = tm.cmpa)
      mb := tm.mb || decide ((tm.cnt + 1) % 2 ^ w = tm.cmpb) } := by
  simp [Timer.tick, h, hn]

/-- A tick of a running timer that reaches PER. -/
theorem tick_wrap (tm : Timer) (w : Nat) (h : tm.en = true) (hn : (tm.cnt + 1) % 2 ^ w = tm.per) :
    tm.tick w = { tm with
      cnt := 0
      ovf := true
      ma := tm.ma || decide (0 = tm.cmpa)
      mb := tm.mb || decide (0 = tm.cmpb) } := by
  simp [Timer.tick, h, hn]

/-- A tick writes neither the period, nor the compare values, nor the enable. -/
@[simp] theorem tick_per (tm : Timer) (w : Nat) : (tm.tick w).per = tm.per := by unfold Timer.tick; split <;> rfl
@[simp] theorem tick_cmpa (tm : Timer) (w : Nat) : (tm.tick w).cmpa = tm.cmpa := by unfold Timer.tick; split <;> rfl
@[simp] theorem tick_cmpb (tm : Timer) (w : Nat) : (tm.tick w).cmpb = tm.cmpb := by unfold Timer.tick; split <;> rfl
@[simp] theorem tick_en (tm : Timer) (w : Nat) : (tm.tick w).en = tm.en := by unfold Timer.tick; split <;> rfl

/-- The counter stays within its width. -/
theorem tick_cnt_lt (tm : Timer) (w : Nat) (h : tm.cnt < 2 ^ w) : (tm.tick w).cnt < 2 ^ w := by
  unfold Timer.tick
  split
  · dsimp only
    split
    · positivity
    · exact Nat.mod_lt _ (by positivity)
  · exact h

/-! The pixel source. -/

/-- loadChannel changes only the environment: it logs the call and may move the host-supplied source on. -/
theorem srcLoad_state (s : State) (ch : BitVec 2) :
    ∃ src, (s.srcLoad ch).2 =
      s.setEnv { s.env with srcCalls := s.env.srcCalls ++ [.loadChannel ch], hostSource := src } := by
  unfold State.srcLoad
  dsimp only
  split
  · exact ⟨s.env.hostSource, rfl⟩
  · split
    · exact ⟨_, rfl⟩
    · exact ⟨s.env.hostSource, rfl⟩
    · exact ⟨s.env.hostSource, rfl⟩

/-- advanceAndLoadChannel0 changes only the environment and the cursor of the ZERO source. -/
theorem srcAdvance_state (s : State) :
    ∃ src z, s.srcAdvance.2 =
      (s.setEnv { s.env with srcCalls := s.env.srcCalls ++ [.advanceAndLoadChannel0], hostSource := src }).setZeroCursor z := by
  unfold State.srcAdvance
  dsimp only
  split
  · exact ⟨s.env.hostSource, s.zeroCursor + 1, rfl⟩
  · split
    · next bs more _ => exact ⟨.oracle bs more, s.zeroCursor, rfl⟩
    · exact ⟨s.env.hostSource, s.zeroCursor, rfl⟩
    · next pixels p _ => exact ⟨.raw pixels (p + 1), s.zeroCursor, rfl⟩

/-- hasMore changes only the environment. -/
theorem srcHasMore_state (s : State) (n : Nat) :
    ∃ src, (s.srcHasMore n).2 =
      s.setEnv { s.env with srcCalls := s.env.srcCalls ++ [.hasMore n], hostSource := src } := by
  unfold State.srcHasMore
  dsimp only
  split
  · exact ⟨s.env.hostSource, rfl⟩
  · split
    · exact ⟨_, rfl⟩
    · exact ⟨s.env.hostSource, rfl⟩
    · exact ⟨s.env.hostSource, rfl⟩

/-! The host registers. -/

/-- A write of a host register other than HCMD changes the timer, or writes the port, or changes nothing. -/
theorem regWrite_cases (s : State) (idx : BitVec 4) (v : Word32) :
    (∃ tm, s.regWrite idx v = s.setTimer tm) ∨ (idx = 0x6#4 ∧ s.regWrite idx v = s.portWrite (s.params.portBits v)) ∨
    s.regWrite idx v = s := by
  unfold State.regWrite
  split
  · exact .inl ⟨_, rfl⟩
  · exact .inl ⟨_, rfl⟩
  · exact .inl ⟨_, rfl⟩
  · exact .inl ⟨_, rfl⟩
  · exact .inl ⟨_, rfl⟩
  · next h => exact .inr (.inl ⟨BitVec.eq_of_toNat_eq h, rfl⟩)
  · exact .inr (.inr rfl)

/-! Frames. -/

/-- The end of a frame leaves everything but the run state, the status and the sequencer registers. -/
theorem endFrame_eq (s : State) (done : Bool) (c : Cause) :
    s.endFrame done c =
      { s with status := { s.status with seqState := .idle, done := done, cause := c }, regs := SeqRegs.unwritten } := rfl

/-- The start of a frame leaves everything but SRCSEL, the status and upc. -/
theorem startFrame_eq (s : State) (src : SrcSel) :
    s.startFrame src =
      { s with srcSel := src, status := { s.status with seqState := .run, done := false, cause := .none }, upc := 0#10 } :=
  rfl

/-- A fault leaves everything but the run state and the status. -/
theorem raiseFault_eq (s : State) (c : Cause) :
    s.raiseFault c = { s with status := { s.status with seqState := .fault, done := false, cause := c } } := rfl

end Sys2Proof.Machine
end

