-- ==== Sys2Proof/Laws/PerInstr.lean ====
section
/-! SUPPORT. The statements made for every instruction, one lemma per constructor. -/

namespace Sys2Proof.Laws

/-- The row of spec/opcode_table.json of an instruction: its format's width, match and mask. -/
def tableRow : Instr → Nat × Nat × Nat
  | .nop => (16, 0x0000, 0xFFFF)
  | .tcfg => (16, 0x0400, 0xFFFF)
  | .trst => (16, 0x0800, 0xFFFF)
  | .ten => (16, 0x0C00, 0xFFFF)
  | .tdis => (16, 0x1000, 0xFFFF)
  | .waitf _ => (16, 0x1400, 0xFFFC)
  | .masks => (16, 0x1800, 0xFFFF)
  | .pwh => (16, 0x1C00, 0xFFFF)
  | .pwl => (16, 0x2000, 0xFFFF)
  | .cli => (16, 0x2400, 0xFFFF)
  | .rsi => (16, 0x2800, 0xFFFF)
  | .wsel => (16, 0x4000, 0xFFFF)
  | .ldbits _ => (16, 0x4400, 0xFF00)
  | .shl => (16, 0x4800, 0xFFFF)
  | .bnz _ => (16, 0x4C00, 0xFC00)
  | .call _ => (16, 0x5000, 0xFC00)
  | .ret => (16, 0x5400, 0xFFFF)
  | .srcpd => (16, 0x8000, 0xFFFF)
  | .srcsd => (16, 0x8400, 0xFFFF)
  | .srcld _ => (16, 0x8800, 0xFFFC)
  | .srcadv => (16, 0x8C00, 0xFFFF)
  | .srchas => (16, 0x9000, 0xFFFF)
  | .bf _ => (16, 0x9400, 0xFC00)
  | .jmp _ => (16, 0x9800, 0xFC00)
  | .bnt _ => (16, 0x9C00, 0xFC00)
  | .dlrst => (16, 0xA000, 0xFFFF)
  | .dlchk => (16, 0xA400, 0xFFFF)
  | .pgwait => (16, 0xA800, 0xFFFF)
  | .pgmark => (16, 0xAC00, 0xFFFF)
  | .endok => (16, 0xB000, 0xFFFF)
  | .endab => (16, 0xB400, 0xFFFF)
  | .initCmd => (32, 0x00000001, 0xFFFFFFFF)
  | .showCmd => (32, 0x00000002, 0xFFFFFFFF)
  | .clearCmd _ => (32, 0x00000003, 0x000000FF)

/-- The code word lies in the row: it has the row's width, and under the row's mask it is the row's match. -/
def inRow : CodeWord → Nat × Nat × Nat → Prop
  | .uop w, (width, m, k) => width = 16 ∧ w &&& BitVec.ofNat 16 k = BitVec.ofNat 16 m
  | .hcmd w, (width, m, k) => width = 32 ∧ w &&& BitVec.ofNat 32 k = BitVec.ofNat 32 m

/-- The encoded word of every instruction lies in its row of the opcode table. -/
def Encoding.Statement (i : Instr) : Prop := inRow (encode i) (tableRow i)

/-- A word with a free 10-bit argument under the mask of its opcode. -/
theorem uop_mask_opcode (opc : BitVec 6) (arg : BitVec 10) : (opc ++ arg) &&& 0xFC00#16 = opc ++ 0#10 := by
  have h : 0xFC00#16 = (0x3F#6 ++ 0#10 : BitVec 16) := by decide
  have h' : opc &&& 0x3F#6 = opc := by
    have : 0x3F#6 = BitVec.allOnes 6 := by decide
    rw [this, BitVec.and_allOnes]
  rw [h, BitVec.and_append, h', BitVec.and_zero]

/-- A word with a free 8-bit immediate under the mask of its opcode and must-be-zero bits. -/
theorem uop_mask_imm (n : BitVec 8) : ((0x11#6 ++ (0#2 ++ n) : BitVec 16)) &&& 0xFF00#16 = 0x4400#16 := by
  revert n; decide

/-- A word with a free 2-bit selector under the mask of its opcode and must-be-zero bits. -/
theorem uop_mask_select (opc : BitVec 6) (f : BitVec 2) :
    ((opc ++ (0#8 ++ f) : BitVec 16)) &&& 0xFFFC#16 = opc ++ 0#10 := by
  revert opc f; decide

/-- A host command word with a free count under the mask of OP and the reserved bits. -/
theorem hcmd_mask_count (count : BitVec 24) : ((count ++ 0#4 ++ 0x3#4 : BitVec 32)) &&& 0xFF#32 = 3#32 := by
  have h : 0xFF#32 = (0#24 ++ 0xF#4 ++ 0xF#4 : BitVec 32) := by decide
  rw [h, BitVec.and_append, BitVec.and_append, BitVec.and_zero]
  decide

namespace Encoding

theorem nop : Statement .nop := ⟨rfl, by decide⟩
theorem tcfg : Statement .tcfg := ⟨rfl, by decide⟩
theorem trst : Statement .trst := ⟨rfl, by decide⟩
theorem ten : Statement .ten := ⟨rfl, by decide⟩
theorem tdis : Statement .tdis := ⟨rfl, by decide⟩
theorem waitf (flg : BitVec 2) : Statement (.waitf flg) := ⟨rfl, uop_mask_select 0x05#6 flg⟩
theorem masks : Statement .masks := ⟨rfl, by decide⟩
theorem pwh : Statement .pwh := ⟨rfl, by decide⟩
theorem pwl : Statement .pwl := ⟨rfl, by decide⟩
theorem cli : Statement .cli := ⟨rfl, by decide⟩
theorem rsi : Statement .rsi := ⟨rfl, by decide⟩
theorem wsel : Statement .wsel := ⟨rfl, by decide⟩
theorem ldbits (n : BitVec 8) : Statement (.ldbits n) := ⟨rfl, uop_mask_imm n⟩
theorem shl : Statement .shl := ⟨rfl, by decide⟩
theorem bnz (tgt : UAddr) : Statement (.bnz tgt) := ⟨rfl, uop_mask_opcode 0x13#6 tgt⟩
theorem call (tgt : UAddr) : Statement (.call tgt) := ⟨rfl, uop_mask_opcode 0x14#6 tgt⟩
theorem ret : Statement .ret := ⟨rfl, by decide⟩
theorem srcpd : Statement .srcpd := ⟨rfl, by decide⟩
theorem srcsd : Statement .srcsd := ⟨rfl, by decide⟩
theorem srcld (ch : BitVec 2) : Statement (.srcld ch) := ⟨rfl, uop_mask_select 0x22#6 ch⟩
theorem srcadv : Statement .srcadv := ⟨rfl, by decide⟩
theorem srchas : Statement .srchas := ⟨rfl, by decide⟩
theorem bf (tgt : UAddr) : Statement (.bf tgt) := ⟨rfl, uop_mask_opcode 0x25#6 tgt⟩
theorem jmp (tgt : UAddr) : Statement (.jmp tgt) := ⟨rfl, uop_mask_opcode 0x26#6 tgt⟩
theorem bnt (tgt : UAddr) : Statement (.bnt tgt) := ⟨rfl, uop_mask_opcode 0x27#6 tgt⟩
theorem dlrst : Statement .dlrst := ⟨rfl, by decide⟩
theorem dlchk : Statement .dlchk := ⟨rfl, by decide⟩
theorem pgwait : Statement .pgwait := ⟨rfl, by decide⟩
theorem pgmark : Statement .pgmark := ⟨rfl, by decide⟩
theorem endok : Statement .endok := ⟨rfl, by decide⟩
theorem endab : Statement .endab := ⟨rfl, by decide⟩
theorem initCmd : Statement .initCmd := ⟨rfl, by decide⟩
theorem showCmd : Statement .showCmd := ⟨rfl, by decide⟩
theorem clearCmd (count : BitVec 24) : Statement (.clearCmd count) := ⟨rfl, hcmd_mask_count count⟩

end Encoding

end Sys2Proof.Laws
end

