-- ==== Sys2Proof/Laws/Rom.lean ====
section
/-! SUPPORT. The laws of the micro-ROM image: what a read gives after a write, and that every image the model builds is in
canonical form. -/

namespace Sys2Proof.Machine

@[simp] theorem Rom.readAt_nil (a : Nat) : Rom.readAt [] a = Rom.filler := rfl

/-- Below the lowest address of a canonical image every word is the filler. -/
theorem Rom.readAt_below {r : Rom} : ∀ (lo a : Nat), Rom.wfFrom lo r = true → a < lo → Rom.readAt r a = Rom.filler := by
  induction r with
  | nil => intros; rfl
  | cons c r ih =>
    obtain ⟨b, v⟩ := c
    intro lo a h ha
    simp only [Rom.wfFrom, Bool.and_eq_true, decide_eq_true_eq] at h
    rw [Rom.readAt, if_neg (by omega)]
    exact ih _ _ h.2 (by omega)

/-- A read of the written address gives the written word. -/
theorem Rom.readAt_write_same {r : Rom} : ∀ (lo a : Nat) (w : Word16), Rom.wfFrom lo r = true →
    Rom.readAt (Rom.write r a w) a = w := by
  induction r with
  | nil =>
    intro lo a w _
    by_cases hw : w = Rom.filler <;> simp [Rom.write, Rom.readAt, hw]
  | cons c r ih =>
    obtain ⟨b, v⟩ := c
    intro lo a w h
    simp only [Rom.wfFrom, Bool.and_eq_true, decide_eq_true_eq] at h
    unfold Rom.write
    by_cases h1 : a < b
    · by_cases hw : w = Rom.filler
      · rw [if_pos h1, if_pos hw, Rom.readAt, if_neg (by omega), hw]
        exact Rom.readAt_below _ _ h.2 (by omega)
      · simp [h1, hw, Rom.readAt]
    · by_cases h2 : a = b
      · by_cases hw : w = Rom.filler
        · rw [if_neg h1, if_pos h2, if_pos hw, hw]
          exact Rom.readAt_below _ _ h.2 (by omega)
        · rw [if_neg h1, if_pos h2, if_neg hw, Rom.readAt, if_pos rfl]
      · rw [if_neg h1, if_neg h2, Rom.readAt, if_neg h2]
        exact ih _ a w h.2

/-- A write leaves every other address alone. -/
theorem Rom.readAt_write_other {r : Rom} (a c : Nat) (w : Word16) (hac : c ≠ a) :
    Rom.readAt (Rom.write r a w) c = Rom.readAt r c := by
  induction r with
  | nil => by_cases hw : w = Rom.filler <;> simp [Rom.write, Rom.readAt, hw, hac]
  | cons e r ih =>
    obtain ⟨b, v⟩ := e
    unfold Rom.write
    split
    · split
      · rfl
      · simp [Rom.readAt, hac]
    · split
      · next h2 =>
        subst h2
        split <;> simp [Rom.readAt, hac]
      · simp only [Rom.readAt]
        split
        · rfl
        · exact ih

/-- A canonical image is canonical from any lower address. -/
theorem Rom.wfFrom_mono {r : Rom} {lo lo' : Nat} (h : Rom.wfFrom lo r = true) (hl : lo' ≤ lo) :
    Rom.wfFrom lo' r = true := by
  cases r with
  | nil => rfl
  | cons c r =>
    obtain ⟨b, v⟩ := c
    simp only [Rom.wfFrom, Bool.and_eq_true, decide_eq_true_eq] at h ⊢
    exact ⟨⟨⟨by omega, h.1.1.2⟩, h.1.2⟩, h.2⟩

/-- A write keeps the canonical form. -/
theorem Rom.write_wfFrom {r : Rom} : ∀ (lo a : Nat) (w : Word16), Rom.wfFrom lo r = true → lo ≤ a → a < 1024 →
    Rom.wfFrom lo (Rom.write r a w) = true := by
  induction r with
  | nil =>
    intro lo a w _ hlo ha
    by_cases hw : w = Rom.filler <;> simp [Rom.write, Rom.wfFrom, hw, hlo, ha]
  | cons c r ih =>
    obtain ⟨b, v⟩ := c
    intro lo a w h hlo ha
    have h' := h
    simp only [Rom.wfFrom, Bool.and_eq_true, decide_eq_true_eq] at h'
    obtain ⟨⟨⟨h1, h2⟩, h3⟩, h4⟩ := h'
    unfold Rom.write
    split
    · next hab =>
      split
      · exact h
      · next hw => simp [Rom.wfFrom, hlo, ha, hw, h2, h3, h4, Nat.succ_le_of_lt hab]
    · split
      · next hab =>
        subst hab
        split
        · exact Rom.wfFrom_mono h4 (by omega)
        · next hw => simp [Rom.wfFrom, hlo, ha, hw, h4]
      · have := ih _ a w h4 (by omega) ha
        simp [Rom.wfFrom, h1, h2, h3, this]
/-- A write of a ROM address keeps the canonical form. -/
theorem Rom.write_wf {r : Rom} (a : UAddr) (w : Word16) (h : r.wf = true) : (Rom.write r a.toNat w).wf = true :=
  Rom.write_wfFrom _ _ _ h (Nat.zero_le _) a.isLt

/-- An image placed from `a` is canonical where its words fit the ROM. -/
theorem Rom.placeFrom_wf (ws : List Word16) : ∀ (lo a : Nat), lo ≤ a → a + ws.length ≤ 1024 →
    Rom.wfFrom lo (Rom.placeFrom a ws) = true := by
  induction ws with
  | nil => intros; rfl
  | cons w ws ih =>
    intro lo a hlo hlen
    simp only [List.length_cons] at hlen
    unfold Rom.placeFrom
    split
    · exact ih lo (a + 1) (by omega) (by omega)
    · next hw =>
      have := ih (a + 1) (a + 1) le_rfl (by omega)
      simp [Rom.wfFrom, hlo, hw, this, show a < 1024 by omega]

/-- A test ROM image is canonical (R482). -/
theorem Rom.ofWords_wf (ws : List Word16) (h : ws.length ≤ 1024) : (Rom.ofWords ws).wf = true :=
  Rom.placeFrom_wf ws 0 0 le_rfl (by omega)

/-- The micro-ROM of every instance is canonical (R290). -/
theorem Rom.reference_wf (nbits : Nat) : (Rom.reference nbits).wf = true :=
  Rom.ofWords_wf _ (by simp [Rom.frameDriverWords, Rom.byteWalkerWords])

/-- The reset state's micro-ROM is canonical. -/
theorem State.resetOf_rom_wf (p : Params) : (State.resetOf p).rom.wf = true := Rom.reference_wf _

/-- Two canonical images that read the same everywhere are equal. -/
theorem Rom.ext_of_wfFrom {r r' : Rom} : ∀ (lo : Nat), Rom.wfFrom lo r = true → Rom.wfFrom lo r' = true →
    (∀ a, Rom.readAt r a = Rom.readAt r' a) → r = r' := by
  induction r generalizing r' with
  | nil =>
    intro lo _ h' hr
    cases r' with
    | nil => rfl
    | cons c r' =>
      obtain ⟨b, v⟩ := c
      have := hr b
      simp only [Rom.wfFrom, Bool.and_eq_true, decide_eq_true_eq] at h'
      simp only [Rom.readAt, if_true] at this
      exact absurd this.symm h'.1.2
  | cons c r ih =>
    obtain ⟨b, v⟩ := c
    intro lo h h' hr
    simp only [Rom.wfFrom, Bool.and_eq_true, decide_eq_true_eq] at h
    cases r' with
    | nil =>
      have := hr b
      simp only [Rom.readAt, if_true] at this
      exact absurd this h.1.2
    | cons c' r' =>
      obtain ⟨b', v'⟩ := c'
      simp only [Rom.wfFrom, Bool.and_eq_true, decide_eq_true_eq] at h'
      have hb : b = b' := by
        rcases lt_trichotomy b b' with hlt | heq | hgt
        · have := hr b
          rw [Rom.readAt, if_pos rfl, Rom.readAt, if_neg (by omega), Rom.readAt_below _ _ h'.2 (by omega)] at this
          exact absurd this h.1.2
        · exact heq
        · have := hr b'
          rw [Rom.readAt, if_neg (by omega), Rom.readAt_below _ _ h.2 (by omega), Rom.readAt, if_pos rfl] at this
          exact absurd this.symm h'.1.2
      subst hb
      have hv : v = v' := by simpa [Rom.readAt] using hr b
      subst hv
      congr 1
      refine ih _ h.2 h'.2 fun a => ?_
      by_cases ha : a = b
      · subst ha
        rw [Rom.readAt_below _ _ h.2 (by omega), Rom.readAt_below _ _ h'.2 (by omega)]
      · simpa [Rom.readAt, ha] using hr a

end Sys2Proof.Machine
end

