-- ==== Sys2Proof/Laws/Runs.lean ====
section
/-! SUPPORT. The small lemmas of runs: offering a choice changes only the pending choices, and a run grows one step at a time. -/

namespace Sys2Proof.Machine

section
variable (s : State) (x : Turn)

@[simp] theorem offer_params : (s.offer x).params = s.params := rfl
@[simp] theorem offer_rom : (s.offer x).rom = s.rom := rfl
@[simp] theorem offer_timer : (s.offer x).timer = s.timer := rfl
@[simp] theorem offer_regs : (s.offer x).regs = s.regs := rfl
@[simp] theorem offer_upc : (s.offer x).upc = s.upc := rfl
@[simp] theorem offer_status : (s.offer x).status = s.status := rfl
@[simp] theorem offer_lastMark : (s.offer x).lastMark = s.lastMark := rfl
@[simp] theorem offer_t : (s.offer x).t = s.t := rfl
@[simp] theorem offer_env : (s.offer x).env = { s.env with turns := [x] } := rfl
/-- Whether the sequencer is enabled does not depend on the choices. -/
@[simp] theorem offer_enabled : (s.offer x).enabled = s.enabled := rfl

end

@[simp] theorem runWith_zero (choice : Nat → Turn) (s : State) : s.runWith choice 0 = .next s := rfl

/-- A run goes on from the state it has reached. -/
theorem runWith_succ {choice : Nat → Turn} {s x : State} {n : Nat} (h : s.runWith choice n = .next x) :
    s.runWith choice (n + 1) = step (x.offer (choice n)) := by
  simp only [State.runWith, h]

/-- A run that reaches its step `n + 1` reaches step `n`, and one step leads from there. -/
theorem runWith_next {choice : Nat → Turn} {s y : State} {n : Nat} (h : s.runWith choice (n + 1) = .next y) :
    ∃ x, s.runWith choice n = .next x ∧ step (x.offer (choice n)) = .next y := by
  simp only [State.runWith] at h
  split at h
  · next x hx => exact ⟨x, hx, h⟩
  all_goals cases h

end Sys2Proof.Machine
end

