-- ==== Sys2Proof/Laws/Step.lean ====
section
/-! SUPPORT. What a step can do, said once: the turn it takes, and what each agent's step answers. -/

namespace Sys2Proof.Machine

/-- A turn is taken, or passed by an agent that cannot take it. -/
theorem takeTurn_cases (s : State) (x : Turn) :
    (s.canTake x = true ∧ s.takeTurn x = s.act x) ∨ (s.canTake x = false ∧ s.takeTurn x = .next s) := by
  unfold State.takeTurn
  cases h : s.canTake x
  · exact .inr ⟨rfl, rfl⟩
  · exact .inl ⟨rfl, rfl⟩

/-- Every step is one agent's step, or the passing of its turn, after the schedule's choice is gone. -/
theorem step_cases (s : State) :
    (s.popTurn.canTake s.nextTurn = true ∧ step s = s.popTurn.act s.nextTurn) ∨
    (s.popTurn.canTake s.nextTurn = false ∧ step s = .next s.popTurn) :=
  takeTurn_cases _ _

/-- The sequencer's step executes the decoded micro-op or faults on an illegal word. -/
theorem seqStep_cases (s : State) :
    (∃ i, decodeUop s.fetched = .ok i ∧ s.seqStep = exec i s.clearLat) ∨
    (∃ e, decodeUop s.fetched = .error e ∧ s.seqStep = .next (s.clearLat.raiseFault .illegalUop)) := by
  unfold State.seqStep
  cases h : decodeUop s.fetched with
  | ok i => exact .inl ⟨i, rfl, rfl⟩
  | error e => exact .inr ⟨e, rfl, rfl⟩

/-- The host's step takes the next of its accesses. -/
theorem hostStep_cases (s : State) :
    (s.env.hostQueue = [] ∧ s.hostStep = .next s) ∨
    ∃ a rest, s.env.hostQueue = a :: rest ∧ s.hostStep = (s.setEnv { s.env with hostQueue := rest }).hostAccess a := by
  unfold State.hostStep
  cases h : s.env.hostQueue with
  | nil => exact .inl ⟨rfl, rfl⟩
  | cons a rest => exact .inr ⟨a, rest, rfl, rfl⟩

/-- A host access that is not refused reads a register, carries out a command, refuses a reserved command word, or writes a
register. -/
theorem hostAccess_next {s s' : State} {a : HostAccess} (h : s.hostAccess a = .next s') :
    (∃ idx, a = .read .word idx ∧ s' = s.setEnv { s.env with hostReads := s.env.hostReads ++ [(idx, s.regRead idx)] }) ∨
    (∃ v i, a = .write .word hcmdIndex v ∧ decodeHcmd v = .ok i ∧ exec i s = .next s') ∨
    (∃ v e, a = .write .word hcmdIndex v ∧ decodeHcmd v = .error e ∧ s' = s.badCommand) ∨
    (∃ idx v, a = .write .word idx v ∧ idx ≠ hcmdIndex ∧ s' = s.regWrite idx v) := by
  unfold State.hostAccess at h
  split at h
  · next idx => exact .inl ⟨idx, rfl, by simpa using h.symm⟩
  · next idx v =>
    split at h
    · next hi =>
      subst hi
      unfold State.hostCommand at h
      split at h
      · next i hd => exact .inr (.inl ⟨v, i, rfl, hd, h⟩)
      · next e hd => exact .inr (.inr (.inl ⟨v, e, rfl, hd, by simpa using h.symm⟩))
    · next hi => exact .inr (.inr (.inr ⟨idx, v, rfl, hi, by simpa using h.symm⟩))
  all_goals simp at h

/-- The micro-op decoder answers no host command. -/
theorem decodeUop_not_command {w : Word16} {i : Instr} (h : decodeUop w = .ok i) :
    i ≠ .initCmd ∧ i ≠ .showCmd ∧ ∀ c, i ≠ .clearCmd c := by
  unfold decodeUop at h
  split at h <;> (try simp only [decodeU0, decodeUF, decodeUC, decodeUI, decodeUT] at h) <;> (try split at h) <;>
    (try split at h) <;> cases h <;> simp

/-- The host command decoder answers host commands only. -/
theorem decodeHcmd_command {w : Word32} {i : Instr} (h : decodeHcmd w = .ok i) :
    i = .initCmd ∨ i = .showCmd ∨ ∃ c, i = .clearCmd c := by
  unfold decodeHcmd at h
  split at h
  · split at h <;> (try simp only [decodeNoCount] at h) <;> (try split at h) <;> cases h <;> simp
  · cases h

end Sys2Proof.Machine
end

