-- ==== Sys2Proof/Tests/Slice0.lean ====
section
/-! SUPPORT. Tests and witnesses. Expected values are the spec's own: the encodings of 30_encoding.md, the Example line of each
rule, and the vectors of 95_test_vectors.md. A `witness_` theorem shows that the hypotheses of a statement are met together by
a concrete state. -/

open Sys2Proof Sys2Proof.Machine

namespace Sys2Proof.Tests

/-! Small states, all of the instance EX (95_test_vectors.md section 0). -/

/-- A frame runs and the sequencer stands at `u`. -/
def running (u : UAddr) : State := { State.reset with status := ⟨.run, true, false, .none⟩, upc := u }

/-- `running` with sequencer registers. -/
def withRegs (u : UAddr) (r : SeqRegs) : State := { running u with regs := r }

/-- `s` with pending choices of the schedule. -/
def withTurns (s : State) (ts : List Turn) : State := { s with env := { s.env with turns := ts } }

/-- IDLE with register accesses of the host pending. -/
def withHost (q : List HostAccess) : State := { State.reset with env := { Env.empty with hostQueue := q } }

/-- Faulted, with the line as at reset. -/
def faulted : State := { State.reset with status := ⟨.fault, true, false, .unwrittenRead⟩ }

/-- EX with its timer as TCFG and TEN leave it. -/
def exTimer : Timer := ⟨0, 10, 3, 7, false, false, false, true⟩

/-- Whether an outcome is a next state of which `f` holds. -/
def nextIs (r : Result) (f : State → Bool) : Bool :=
  match r with
  | .next s => f s
  | .fault _ | .refused _ => false

/-- A next state, as an Option. -/
def isNext (r : Result) : Bool := nextIs r fun _ => true

/-! ## Well-formedness: one ill-formed term for each check -/

theorem test_waitf_reserved_flag_is_ill_formed : (Instr.waitf 3#2).wellFormed = false := by decide
theorem test_srcld_reserved_channel_is_ill_formed : (Instr.srcld 3#2).wellFormed = false := by decide
theorem test_waitf_mb_is_well_formed : (Instr.waitf 2#2).wellFormed = true := by decide

/-! ## Decoding: words written out bit by bit, OPC then ARG (R111 to R120, R130, R131) -/

theorem test_decode_timer_and_port :
    [0b000000_0000000000#16, 0b000001_0000000000, 0b000010_0000000000, 0b000011_0000000000, 0b000100_0000000000,
     0b000101_0000000000, 0b000101_0000000001, 0b000101_0000000010, 0b000110_0000000000, 0b000111_0000000000,
     0b001000_0000000000, 0b001001_0000000000, 0b001010_0000000000].map (fun w => (decodeUop w).toOption) =
    [some .nop, some .tcfg, some .trst, some .ten, some .tdis, some (.waitf 0), some (.waitf 1), some (.waitf 2),
     some .masks, some .pwh, some .pwl, some .cli, some .rsi] := by decide

theorem test_decode_byte_walker :
    [0b010000_0000000000#16, 0b010001_0000001010, 0b010010_0000000000, 0b010011_0000100010, 0b010100_0000100001,
     0b010101_0000000000].map (fun w => (decodeUop w).toOption) =
    [some .wsel, some (.ldbits 10), some .shl, some (.bnz 0x022), some (.call 0x021), some .ret] := by decide

theorem test_decode_frame_driver :
    [0b100000_0000000000#16, 0b100001_0000000000, 0b100010_0000000000, 0b100010_0000000001, 0b100010_0000000010,
     0b100011_0000000000, 0b100100_0000000000, 0b100101_0000011001, 0b100110_0000001010, 0b100111_0000011000,
     0b101000_0000000000, 0b101001_0000000000, 0b101010_0000000000, 0b101011_0000000000, 0b101100_0000000000,
     0b101101_0000000000].map (fun w => (decodeUop w).toOption) =
    [some .srcpd, some .srcsd, some (.srcld 0), some (.srcld 1), some (.srcld 2), some .srcadv, some .srchas,
     some (.bf 0x019), some (.jmp 0x00A), some (.bnt 0x018), some .dlrst, some .dlchk, some .pgwait, some .pgmark,
     some .endok, some .endab] := by decide

theorem test_decode_host_commands :
    [0x00000001#32, 0x00000002, 0x00000203, 0xFFFFFF03].map (fun w => (decodeHcmd w).toOption) =
    [some .initCmd, some .showCmd, some (.clearCmd 2), some (.clearCmd 0xFFFFFF)] := by decide

theorem test_decode_rejects_by_name :
    decodeUop 0x0001#16 = .error .nonzeroArg ∧ decodeUop 0x1403#16 = .error .reservedFlag ∧
    decodeUop 0x8803#16 = .error .reservedChannel ∧ decodeUop 0x1404#16 = .error .nonzeroArg ∧
    decodeUop 0x4500#16 = .error .nonzeroArg ∧ decodeUop 0x2C00#16 = .error .reservedOpcode ∧
    decodeUop 0xFFFF#16 = .error .reservedOpcode ∧ decodeHcmd 0#32 = .error .reservedCommand ∧
    decodeHcmd 0x4#32 = .error .reservedCommand ∧ decodeHcmd 0x11#32 = .error .reservedCommandBits ∧
    decodeHcmd 0x101#32 = .error .nonzeroCount := ⟨rfl, rfl, rfl, rfl, rfl, rfl, rfl, rfl, rfl, rfl, rfl⟩

theorem test_encode_is_the_table_word :
    encode (.bf 0x019) = .uop 0x9419 ∧ encode (.srcld 2) = .uop 0x8802 ∧ encode (.ldbits 8) = .uop 0x4408 ∧
    encode (.clearCmd 2) = .hcmd 0x00000203 := by decide

theorem test_fetch_word_runs_as_first_instruction :
    decodeTableWord 16 0x1800 = some .masks ∧
    nextIs (step (State.reset.withFetchWord 16 0x1800)) (fun s => s.regs.hi = some 1 ∧ s.regs.lo = some 0 ∧ s.upc = 1) ∧
    decodeTableWord 32 0x1 = some .initCmd ∧
    nextIs (step (State.reset.withFetchWord 32 0x1)) (fun s => s.status.cfgOk) := by decide

/-! ## The tick (R151) -/

theorem test_tick_matches_channel_a : ({ exTimer with cnt := 2 }).tick 8 = { exTimer with cnt := 3, ma := true } := by decide
theorem test_tick_wraps_at_period : ({ exTimer with cnt := 9 }).tick 8 = { exTimer with cnt := 0, ovf := true } := by decide

/-! ## One step of each instruction: the Example lines of the rules -/

theorem test_nop : nextIs (exec .nop (running 0x010)) (fun s => s = running 0x011) := by decide
theorem test_tcfg : nextIs (exec .tcfg (running 0)) (fun s => s.timer = ⟨0, 10, 3, 7, false, false, false, false⟩) := by decide
theorem test_trst : nextIs (exec .trst { running 0 with timer := ⟨2, 10, 3, 7, true, true, true, true⟩ })
    (fun s => s.timer = exTimer) := by decide
theorem test_ten_counts_at_the_next_tick : nextIs (exec .ten { running 0 with timer := { exTimer with en := false } })
    (fun s => s.timer.en ∧ s.tick.timer.cnt = 1) := by decide
theorem test_tdis_holds_the_count : nextIs (exec .tdis { running 0 with timer := { exTimer with cnt := 7 } })
    (fun s => s.tick.timer.cnt = 7) := by decide
theorem test_waitf_blocks : nextIs (exec (.waitf 2) { running 0 with timer := { exTimer with ovf := true, ma := true } })
    (fun s => s.upc = 0) := by decide
theorem test_waitf_passes : nextIs (exec (.waitf 2) { running 0 with timer := { exTimer with mb := true } })
    (fun s => s.upc = 1 ∧ s.timer.mb) := by decide
theorem test_masks_pin_low : nextIs (exec .masks { running 1 with port := 0xA4 })
    (fun s => s.regs.hi = some 0xA5 ∧ s.regs.lo = some 0xA4) := by decide
theorem test_masks_pin_high : nextIs (exec .masks { running 1 with port := 0x05 })
    (fun s => s.regs.hi = some 0x05 ∧ s.regs.lo = some 0x04) := by decide
theorem test_pwh : nextIs (exec .pwh { withRegs 0x24 { SeqRegs.unwritten with hi := some 0x01 } with t := 10 })
    (fun s => s.port = 1 ∧ s.trace = [(10, 0x01)]) := by decide
theorem test_pwh_unwritten_faults : nextIs (exec .pwh (running 0x24))
    (fun s => s.status = ⟨.fault, true, false, .unwrittenRead⟩ ∧ s.upc = 0x24 ∧ s.trace = []) := by decide
theorem test_pwl : nextIs (exec .pwl { withRegs 0x26 { SeqRegs.unwritten with lo := some 0x00 } with t := 13, port := 1 })
    (fun s => s.port = 0 ∧ s.trace = [(13, 0x00)]) := by decide
theorem test_cli : nextIs (exec .cli (running 5)) (fun s => s.regs.sie = some true ∧ !s.ie) := by decide
theorem test_rsi : nextIs (exec .rsi { withRegs 0x1A { SeqRegs.unwritten with sie := some true } with ie := false })
    (fun s => s.ie ∧ s.regs.sie = some true) := by decide
theorem test_wsel_one_waits_for_mb :
    nextIs (exec .wsel { withRegs 0x25 { SeqRegs.unwritten with b := some 0x80 } with timer := { exTimer with ma := true } })
      (fun s => s.upc = 0x25) := by decide
theorem test_wsel_zero_takes_ma :
    nextIs (exec .wsel { withRegs 0x25 { SeqRegs.unwritten with b := some 0x7F } with timer := { exTimer with ma := true } })
      (fun s => s.upc = 0x26) := by decide
theorem test_ldbits : nextIs (exec (.ldbits 10) (running 0x21)) (fun s => s.regs.i = some 10) := by decide
theorem test_shl : nextIs (exec .shl (withRegs 0x27 { SeqRegs.unwritten with b := some 0xA5, i := some 8 }))
    (fun s => s.regs.b = some 0x4A ∧ s.regs.i = some 7) := by decide
theorem test_shl_wraps : nextIs (exec .shl (withRegs 0x27 { SeqRegs.unwritten with b := some 0x80, i := some 0 }))
    (fun s => s.regs.b = some 0x00 ∧ s.regs.i = some 255) := by decide
theorem test_bnz_taken : nextIs (exec (.bnz 0x022) (withRegs 0x28 { SeqRegs.unwritten with i := some 7 }))
    (fun s => s.upc = 0x022) := by decide
theorem test_bnz_not_taken : nextIs (exec (.bnz 0x022) (withRegs 0x28 { SeqRegs.unwritten with i := some 0 }))
    (fun s => s.upc = 0x029) := by decide
theorem test_call : nextIs (exec (.call 0x021) (running 0x00D))
    (fun s => s.regs.lr = some 0x00E ∧ s.upc = 0x021) := by decide
theorem test_ret : nextIs (exec .ret (withRegs 0x29 { SeqRegs.unwritten with lr := some 0x00E })) (fun s => s.upc = 0x00E) := by
  decide

/-- RawSource of one red pixel and one other, at pixel 0 (R332). -/
def rawState (cursor : Nat) : State :=
  { running 4 with env := { Env.empty with hostSource := .raw [⟨0xFF, 0x00, 0x00⟩, ⟨0x12, 0x34, 0x56⟩] cursor } }

theorem test_srcpd : nextIs (exec .srcpd (rawState 0)) (fun s => s.env.srcCalls = [.preDitherStep] ∧ s.upc = 5) := by decide
theorem test_srcsd : nextIs (exec .srcsd (rawState 0)) (fun s => s.env.srcCalls = [.stepDithering] ∧ s.upc = 5) := by decide
theorem test_srcld_channel_1 : nextIs (exec (.srcld 1) (rawState 0)) (fun s => s.regs.b = some 0x00) := by decide
theorem test_srcld_channel_2 : nextIs (exec (.srcld 2) (rawState 1)) (fun s => s.regs.b = some 0x56) := by decide
theorem test_srcadv : nextIs (exec .srcadv (rawState 0)) (fun s => s.regs.b = some 0x12) := by decide
theorem test_srchas_at_end : nextIs (exec .srchas (rawState 2)) (fun s => s.regs.f = some false) := by decide
theorem test_srchas_last_pixel : nextIs (exec .srchas (rawState 1)) (fun s => s.regs.f = some true) := by decide
theorem test_bf : nextIs (exec (.bf 0x019) (withRegs 0x00B { SeqRegs.unwritten with f := some false }))
    (fun s => s.upc = 0x019) := by decide
theorem test_jmp : nextIs (exec (.jmp 0x00A) (running 0x018)) (fun s => s.upc = 0x00A) := by decide
theorem test_bnt : nextIs (exec (.bnt 0x018) (running 0x013)) (fun s => s.upc = 0x018) := by decide
theorem test_dlrst : nextIs (exec .dlrst (running 9)) (fun s => s.regs.d = some 0) := by decide
theorem test_dlchk_on_time : nextIs (exec .dlchk { withRegs 0x16 { SeqRegs.unwritten with d := some 0 } with t := 247 })
    (fun s => s.regs.d = some 240 ∧ s.regs.f = some true) := by decide
theorem test_dlchk_late : nextIs (exec .dlchk { withRegs 0x16 { SeqRegs.unwritten with d := some 0 } with t := 248 })
    (fun s => s.regs.d = some 240 ∧ s.regs.f = some false) := by decide
theorem test_pgwait_blocks : nextIs (exec .pgwait { running 0 with lastMark := some 243, t := 292 }) (fun s => s.upc = 0) := by
  decide
theorem test_pgwait_passes : nextIs (exec .pgwait { running 0 with lastMark := some 243, t := 293 }) (fun s => s.upc = 1) := by
  decide
theorem test_pgmark : nextIs (exec .pgmark { running 0x1B with t := 243 }) (fun s => s.lastMark = some 243) := by decide
theorem test_endok : nextIs (exec .endok (withRegs 0x1C { SeqRegs.unwritten with b := some 0 }))
    (fun s => s.regRead 0x8 = 0x06 ∧ s.regs = SeqRegs.unwritten ∧ s.upc = 0x1C) := by decide
theorem test_endab : nextIs (exec .endab (running 0x20)) (fun s => s.regRead 0x8 = 0x32 ∧ s.upc = 0x21) := by decide
theorem test_init : nextIs (exec .initCmd State.reset) (fun s => s.regRead 0x8 = 0x02) := by decide
theorem test_init_invalid : nextIs (exec .initCmd { State.reset with params := { Params.EX with t3 := 249 } })
    (fun s => s.regRead 0x8 = 0x10) := by decide
theorem test_show_starts : nextIs (exec .showCmd { State.reset with status := ⟨.idle, true, true, .badCommand⟩ })
    (fun s => s.regRead 0x8 = 0x03 ∧ s.upc = 0) := by decide
theorem test_show_refused : nextIs (exec .showCmd State.reset) (fun s => s.regRead 0x8 = 0x20) := by decide
theorem test_clear : nextIs (exec (.clearCmd 2) { State.reset with status := ⟨.idle, true, false, .none⟩ })
    (fun s => s.srcSel = .zero 2 ∧ s.status.busy) := by decide

/-! ## The assembler (R145, R146) -/

theorem test_assemble : (assemble 8 ["L: WAITF ma ; c", "BNZ L", "END"]).toOption =
    some [0x1401#16, 0x4C00, 0xB000] := by decide

/-! ## Witnesses: concrete states that meet the hypotheses of the statements -/

/-- The registers of EX inside WRITE_BITS: byte 0x80, the masks of a port at 0, called from 0x00D. -/
def walkerRegs (i : Byte) : SeqRegs := ⟨some 0x80, some i, some true, some 1, some 0, some 0x00E, some 0, some true⟩

/-- EX inside WRITE_BITS at `u`, after the initial PWL, with the line low. -/
def walker (u : UAddr) (i : Byte) : State :=
  { withRegs u (walkerRegs i) with timer := { exTimer with ovf := true }, ie := false, trace := [(0, 0)] }

/-- EX at one of its two ends, ENDOK at 0x01C or ENDAB at 0x020. -/
def atEnd (u : UAddr) : State := { walker u 0 with timer := { exTimer with en := false }, ie := true }

/-- EX at the PGWAIT of its second frame, in a preemption of `d` ticks. -/
def preempted (d : Nat) : State :=
  { running 0 with lastMark := some 0, env := { Env.empty with preempt := d } }

/-- EX with LAT_MAX = 2, one tick after the sequencer became enabled. -/
def late (lat : Nat) : State :=
  { running 1 with params := { Params.EX with latMax := 2 }, env := { Env.empty with turns := [.tick], lat := lat } }

theorem witness_reference_rom : (8 : Nat) ≤ (8#8).toNat ∧ (8 : Nat) ≤ (255#8).toNat := by decide
theorem witness_params_wf : Params.EX.wf = true := by decide

theorem witness_inv : (walker 0x023 8).Inv where
  params_wf := by decide
  rom_wf := by decide
  cnt_fits := by decide
  per_fits := by decide
  cmpa_fits := by decide
  cmpb_fits := by decide
  port_fits := by decide
  hi_fits := by intro v h; cases h; decide
  lo_fits := by intro v h; cases h; decide
  idle_unwritten := by decide
  cfgOk_valid := by decide
  run_configured := by decide
  run_cause := by decide
  done_idle := by decide
  fault_cause := by decide
  mark_past := by intro m h; cases h
  trace_ordered := by simp [walker]
  trace_past := by decide
  trace_port := by decide
  lat_from_enabling := by decide
  preempt_run := by decide

theorem witness_inv_step : isNext (step (walker 0x023 8)) = true := by decide

theorem witness_encode : (Instr.waitf 2#2).wellFormed = true ∧ (Instr.srcld 2#2).wellFormed = true ∧
    (Instr.clearCmd 0xFFFFFF#24).wellFormed = true := by decide
theorem witness_decode : decode (.uop 0x8802#16) = .ok (.srcld 2) ∧ decode (.hcmd 0xFFFFFF03#32) = .ok (.clearCmd 0xFFFFFF) :=
  ⟨rfl, rfl⟩

theorem witness_reserved_command : State.reset.status.seqState = .idle ∧ ReservedCommandWord 0#32 ∧
    ReservedCommandWord 4#32 ∧ ReservedCommandWord 0x10#32 ∧ ReservedCommandWord 0x101#32 := by
  unfold ReservedCommandWord; decide

theorem witness_step_runs : (running 0).status.seqState = .run ∧ (running 0).env.preempt = 0 ∧
    decodeUop ((running 0).rom.fetch (running 0).upc) = .ok .pgwait ∧ (running 0).nextTurn = .seq ∧
    (running 0).env.turns = [] ∧ (running 0).blockedOn .pgwait = false :=
  ⟨rfl, rfl, rfl, by decide, rfl, rfl⟩
theorem witness_step_idle : State.reset.status.seqState ≠ .run ∧ (withTurns State.reset [.seq]).nextTurn = .seq := by decide

theorem witness_illegal_word : (running 0x02A).status.seqState = .run ∧ (running 0x02A).env.preempt = 0 ∧
    (running 0x02A).nextTurn = .seq ∧ ¬ MappedWord ((running 0x02A).rom.fetch (running 0x02A).upc) := by
  unfold MappedWord; decide

theorem witness_host_idle (a : HostAccess) : (withHost [a]).nextTurn = .host ∧ (withHost [a]).status.seqState = .idle ∧
    (withHost [a]).env.hostQueue = a :: [] := ⟨rfl, rfl, rfl⟩
theorem witness_host_fault : ({ faulted with env := { Env.empty with hostQueue := [.write .word 9 1] } }).nextTurn = .host := by
  decide
theorem witness_host_words : decodeHcmd 0x0000FF03#32 = .ok (.clearCmd 0xFF) ∧ ReservedCommandWord 5#32 ∧
    (0x0000FF03#32).toNat = (0xFF#24).toNat * 256 + 0x03 := by
  refine ⟨rfl, ?_, rfl⟩; unfold ReservedCommandWord; decide

theorem witness_tick_clauses : State.reset.timer.en = false ∧ exTimer.en = true ∧
    (({ exTimer with cnt := 8 }).cnt + 1) % 2 ^ 8 ≠ exTimer.per ∧ (({ exTimer with cnt := 9 }).cnt + 1) % 2 ^ 8 = exTimer.per ∧
    State.reset.nextTurn = .tick := by decide
theorem witness_flags : ({ exTimer with ovf := true, ma := true, mb := true }).ovf = true ∧
    isNext (exec .wsel (walker 0x025 8)) = true ∧ Instr.wsel ≠ .trst := by decide

theorem witness_matches : exTimer.en = true ∧ 1 ≤ exTimer.cmpa ∧ exTimer.cmpa < exTimer.per ∧ 1 ≤ exTimer.cmpb ∧
    exTimer.cmpb < exTimer.per ∧ exTimer.per < 2 ^ Params.EX.cntW ∧ isNext (exec .trst { running 7 with timer := exTimer }) ∧
    Params.EX.valid = true ∧ isNext (exec .tcfg (running 6)) := by decide

theorem witness_starved_waitf : (running 0x022).status.seqState = .run ∧ (running 0x022).timer.en = false ∧
    (running 0x022).nextTurn ≠ .reset ∧ (running 0x022).timer.flag 0#2 = some false ∧
    decodeUop ((running 0x022).rom.fetch (running 0x022).upc) = .ok (.waitf 0) := ⟨rfl, rfl, by decide, rfl, rfl⟩
theorem witness_starved_wsel : ∀ b : Byte, b = 0x7F ∨ b = 0x80 →
    let s := withRegs 0x025 { SeqRegs.unwritten with b := some b }
    s.timer.en = false ∧ s.nextTurn ≠ .reset ∧ decodeUop (s.rom.fetch s.upc) = .ok .wsel ∧ s.regs.b = some b ∧
    (if b.getLsbD 7 then s.timer.mb else s.timer.ma) = false := by
  rintro b (rfl | rfl) <;> exact ⟨rfl, by decide, rfl, rfl, by decide⟩

theorem witness_pin : Params.EX.pin < Params.EX.portW ∧ Params.EX.portW ≤ 32 ∧
    ({ Params.EX with pin := 31, portW := 32 }).pin < ({ Params.EX with pin := 31, portW := 32 }).portW := by decide

theorem witness_written_registers : (walker 0x024 8).regs = walkerRegs 8 ∧ (walkerRegs 8).hi = some 1 ∧
    (walkerRegs 8).lo = some 0 ∧ (walkerRegs 8).sie = some true ∧ (walkerRegs 8).b = some 0x80 ∧ (walkerRegs 8).i = some 8 ∧
    (walkerRegs 8).lr = some 0x00E ∧ (walkerRegs 8).f = some true ∧ (walkerRegs 8).d = some 0 := by decide
theorem witness_unwritten_registers : (running 0).regs.hi = none ∧ (running 0).regs.lo = none ∧ (running 0).regs.sie = none ∧
    (running 0).regs.b = none ∧ (running 0).regs.i = none ∧ (running 0).regs.lr = none ∧ (running 0).regs.f = none ∧
    (running 0).regs.d = none := by decide
theorem witness_wsel_bytes : (127#8).toNat < 128 ∧ 128 ≤ (128#8).toNat := by decide

theorem witness_sources : (rawState 0).srcSel = .host ∧
    (rawState 0).env.hostSource = .raw [⟨0xFF, 0x00, 0x00⟩, ⟨0x12, 0x34, 0x56⟩] 0 ∧ (2#2 : BitVec 2) ≠ 3#2 ∧
    (1 : Nat) < [(⟨0xFF, 0x00, 0x00⟩ : Pixel), ⟨0x12, 0x34, 0x56⟩].length := by decide
theorem witness_zero_source : ({ running 4 with srcSel := .zero 2 }).srcSel = .zero 2 := rfl
theorem witness_oracle_source :
    ({ running 4 with env := { Env.empty with hostSource := .oracle [7] [true] } }).env.hostSource = .oracle [7] [true] := rfl

theorem witness_dlchk : (walker 0x16 0).regs.d = some 0 ∧ (240 : Nat) = 0 + 3 * (8 + 0) * (3 + 4 + 3) := by decide
theorem witness_pgwait : State.reset.lastMark = none ∧ 243 + Params.EX.minGap ≤ 293 ∧ 292 < 243 + Params.EX.minGap := by decide

/-- The conditions of Valid, as the statement about INIT spells them. -/
abbrev validSpelled (p : Params) : Prop :=
  (1 ≤ p.t1 ∧ 1 ≤ p.t2 ∧ 1 ≤ p.t3) ∧ p.t1 + p.t2 + p.t3 ≤ 2 ^ p.cntW - 1 ∧ (8 ≤ 8 + p.xtra ∧ 8 + p.xtra ≤ 255) ∧
    p.pin < p.portW ∧ p.protoOk = true

theorem witness_init : State.reset.status.seqState ≠ .fault ∧ validSpelled { Params.EX with t3 := 248, xtra := 247 } ∧
    ¬validSpelled { Params.EX with t3 := 249 } ∧ ¬validSpelled { Params.EX with t1 := 0 } ∧
    ¬validSpelled { Params.EX with xtra := 248 } := by decide
theorem witness_show : (atEnd 0).status.cfgOk = true ∧ State.reset.status.cfgOk = false ∧ (atEnd 0).status.seqState ≠ .fault := by
  decide
theorem witness_faulted : faulted.status.seqState = .fault ∧ isNext (step faulted) ∧ faulted.nextTurn ≠ .reset ∧
    (withTurns faulted [.reset]).nextTurn = .reset := by decide
theorem witness_narrow : AccessWidth.byte ≠ .word ∧ AccessWidth.half ≠ .word := by decide

theorem witness_reads_fault : (running 0).status.cause ≠ .unwrittenRead ∧ isNext (exec .pwh (running 0)) ∧
    isNext (exec .dlchk (running 0)) ∧ isNext (exec .dlchk (walker 0x16 0)) ∧ isNext (exec .endok (running 0)) := by decide
theorem witness_register_writers : isNext (exec .shl (walker 0x027 8)) = true ∧ Instr.shl ≠ .endok ∧ Instr.shl ≠ .endab := by
  decide
theorem witness_any_step : isNext (step State.reset) = true := by decide

theorem witness_host_blocked : (running 1).status.seqState = .run ∧ (running 1).nextTurn ≠ .reset ∧ isNext (step (running 1)) ∧
    (withTurns (running 1) [.prepare (.raw [] 0)]).nextTurn = .prepare (.raw [] 0) ∧
    isNext (step (withTurns (running 1) [.prepare (.raw [] 0)])) := by decide

theorem witness_preemption : (withTurns (running 0) [.preempt 0]).nextTurn = .preempt 0 ∧ (running 0).ie = true ∧
    (running 0).env.preempt = 0 ∧ (withTurns (walker 0x022 8) [.preempt 5]).nextTurn = .preempt 5 ∧ (walker 0x022 8).ie = false ∧
    0 < (preempted 1).env.preempt ∧ (preempted 1).status.seqState = .run ∧ (preempted 1).nextTurn ≠ .reset ∧
    isNext (step (preempted 1)) := by decide

theorem witness_schedule_turns : (late 1).enabled = true ∧ (late 1).nextTurn = .tick ∧ State.reset.enabled = false ∧
    nextIs (step (late 1)) (fun s => s.env.lat = 2) ∧ nextIs (step State.reset) (fun s => s.env.lat = 0) ∧
    (running 1).nextTurn = .seq ∧ isNext (step (running 1)) ∧ (withTurns (running 1) [.host]).nextTurn = .host ∧
    isNext (step (withTurns (running 1) [.host])) ∧ (withTurns (preempted 1) [.seq]).nextTurn = .seq ∧
    (preempted 1).env.preempt ≠ 0 ∧ isNext (step (withTurns (preempted 1) [.seq])) := by decide

/-- A test ROM image whose one word is a JMP to itself (R264), with LAT_MAX = 1, at time `t` and count `lat`. -/
def jumpLoop (t lat : Nat) : State :=
  { running 0 with
    params := { Params.EX with latMax := 1 }, rom := [(0, 0x9800)], t := t, env := { Env.empty with lat := lat } }

/-- Ticks and the sequencer's steps in turn. -/
def alternate (n : Nat) : Turn := if n % 2 = 0 then .tick else .seq

/-- The run of the loop: a tick before each step of the sequencer. -/
theorem jumpLoop_run (k : Nat) : (jumpLoop 0 0).runWith alternate (2 * k) = .next (jumpLoop k 0) ∧
    (jumpLoop 0 0).runWith alternate (2 * k + 1) = .next (jumpLoop (k + 1) 1) := by
  have word : decodeUop 0x9800#16 = .ok (.jmp 0) := by decide
  have on : ∀ k l, (jumpLoop k l).enabled = true := fun k l => by
    simp [State.enabled, State.fetched, jumpLoop, running, Rom.fetch, Rom.readAt, word, State.blockedOn]
  have tick : ∀ k, step ((jumpLoop k 0).offer .tick) = .next (jumpLoop (k + 1) 1) := fun k => by
    have count : ((jumpLoop k 0).offer .tick).popTurn.latAfterTick = 1 := by
      show (if (0 : Nat) = 0 then (if (jumpLoop k 0).enabled = true then 0 + 1 else 0) else 0) = 1
      rw [on]; rfl
    show Host.Outcome.next ((((jumpLoop k 0).offer .tick).popTurn).tick) = _
    rw [State.tick, count]; rfl
  have jump : ∀ k, step ((jumpLoop k 1).offer .seq) = .next (jumpLoop k 0) := fun k => by
    have fetched : ((jumpLoop k 1).offer .seq).popTurn.fetched = 0x9800#16 := by
      show Rom.readAt [(0, 0x9800#16)] (0x000#10).toNat = _
      rfl
    show ((jumpLoop k 1).offer .seq).popTurn.seqStep = _
    rw [State.seqStep, fetched, word]
    rfl
  have even : ∀ k, alternate (2 * k) = .tick := fun k => if_pos (by omega)
  have odd : ∀ k, alternate (2 * k + 1) = .seq := fun k => if_neg (by omega)
  induction k with
  | zero => exact ⟨rfl, rfl⟩
  | succ k ih =>
    have h : (jumpLoop 0 0).runWith alternate (2 * (k + 1)) = .next (jumpLoop (k + 1) 0) := by
      rw [show 2 * (k + 1) = 2 * k + 1 + 1 by ring, runWith_succ ih.2, odd, jump]
    exact ⟨h, by rw [runWith_succ h, even, tick]⟩

/-- The loop follows S(1): time goes on although the sequencer is always enabled. -/
theorem witness_follows_schedule : (jumpLoop 0 0).FollowsSchedule alternate where
  onTime n x h := by
    obtain ⟨k, rfl | rfl⟩ := Nat.even_or_odd' n
    · rw [(jumpLoop_run k).1] at h; cases h; exact Nat.zero_le 1
    · rw [(jumpLoop_run k).2] at h; cases h; exact Nat.le_refl 1
  timeGoesOn n := ⟨2 * n, _, _, by omega, (jumpLoop_run n).1, (jumpLoop_run n).2, rfl⟩

/-- A window of that run in which the sequencer is enabled and has not stepped: from its start to the first step. -/
theorem witness_schedule_window : (jumpLoop 0 0).env.lat = 0 ∧ (jumpLoop 0 0).enabled = true ∧
    ((jumpLoop 0 0).offer (alternate 0)).nextTurn = .tick ∧ (jumpLoop 0 0).unpreemptedTick alternate 0 = true := by decide

theorem witness_reset_turn : (withTurns (walker 0x025 8) [.reset]).nextTurn = .reset := by decide

theorem witness_on_listing : (walker 0x023 8).OnListing where
  params_wf := by decide
  rom_reference := by decide
  cfgOk_valid := by decide
  run_configured := by decide
  no_fault := by decide
  preempt_run := by decide
  at_listing _ :=
    { upc_listed := by decide, masks := fun _ => ⟨rfl, 0, rfl, by decide⟩, byte := by decide, saved := by decide,
      deadline := by decide, condition := by decide, link := by decide, count := by decide, line_low := by decide,
      line_high := by decide, masked := by decide, configured := by decide, running := by decide, stopped := by decide }

theorem witness_on_listing_step : isNext (step (walker 0x023 8)) = true := by decide

theorem witness_frame_end_ok : (atEnd 0x01C).OnListing where
  params_wf := by decide
  rom_reference := by decide
  cfgOk_valid := by decide
  run_configured := by decide
  no_fault := by decide
  preempt_run := by decide
  at_listing _ :=
    { upc_listed := by decide, masks := fun _ => ⟨rfl, 0, rfl, by decide⟩, byte := by decide, saved := by decide,
      deadline := by decide, condition := by decide, link := by decide, count := by decide, line_low := by decide,
      line_high := by decide, masked := by decide, configured := by decide, running := by decide, stopped := by decide }

theorem witness_frame_end_abort : (atEnd 0x020).OnListing where
  params_wf := by decide
  rom_reference := by decide
  cfgOk_valid := by decide
  run_configured := by decide
  no_fault := by decide
  preempt_run := by decide
  at_listing _ :=
    { upc_listed := by decide, masks := fun _ => ⟨rfl, 0, rfl, by decide⟩, byte := by decide, saved := by decide,
      deadline := by decide, condition := by decide, link := by decide, count := by decide, line_low := by decide,
      line_high := by decide, masked := by decide, configured := by decide, running := by decide, stopped := by decide }

theorem witness_frame_end_step : ∀ u : UAddr, u = 0x01C ∨ u = 0x020 → (atEnd u).status.seqState = .run ∧
    (atEnd u).nextTurn ≠ .reset ∧ nextIs (step (atEnd u)) (fun s => s.status.seqState = .idle) := by
  rintro u (rfl | rfl) <;> decide

theorem witness_ideal_run (u : UAddr) (i : Byte) : (walker u i).IdealRun :=
  ⟨rfl, by show (8 : Nat) ≤ 255; decide, rfl, rfl, rfl⟩
theorem witness_timer_running (u : UAddr) (i : Byte) : (walker u i).TimerRunning :=
  ⟨rfl, rfl, rfl, rfl, by show (10 : Nat) ≤ 2 ^ 8 - 1; decide, by show (1 : Nat) ≤ 3; decide, by show (1 : Nat) ≤ 4; decide,
    by show (1 : Nat) ≤ 3; decide⟩
theorem witness_one_bit : (walker 0x022 2).upc = 0x022#10 ∧ (walker 0x022 2).timer.ovf = true ∧ (2#8 : Byte) ≠ 1#8 ∧
    (walker 0x022 1).regs.i = some 1#8 ∧ (walker 0x022 1).regs.b = some 0x80 ∧ (walker 0x022 1).regs.hi = some 1 ∧
    (walker 0x022 1).regs.lo = some 0 := by decide
theorem witness_write_bits : (walker 0x021 0).upc = 0x021#10 ∧ (walker 0x021 0).regs.lr = some 0x00E ∧
    (walker 0x021 0).timer.cnt < (walker 0x021 0).timer.per := by decide

end Sys2Proof.Tests
end

