-- ==== Sys2Proof/Proofs/ResetValues.lean ====
section
/-! The reset state of an instance (R62): every field is at its value by the definition of `State.resetOf`; what has content
is that the two packed registers of R50 read as R62 says. -/

namespace Sys2Proof.Machine

/-- Index 0x0 reads TMR_CTRL (R50). -/
@[simp] theorem State.regRead_tmrCtrl (s : State) : s.regRead 0x0#4 = s.timer.ctrlWord := rfl

/-- Index 0x8 reads BLK_STATUS (R50). -/
@[simp] theorem State.regRead_blkStatus (s : State) : s.regRead 0x8#4 = s.status.word := rfl

/-- PRESC = 00, MODE = 1 and EN = 0 (R36 to R38). -/
theorem Timer.reset_ctrlWord : Timer.reset.ctrlWord = 0b0010#32 := by decide

/-- CAUSE = NONE and no flag set, so that BUSY and FAULTED read 0 too (R52, R54). -/
theorem Status.reset_word : Status.reset.word = 0#32 := by decide

/-- TMR_CTRL at reset, whatever the instance. -/
theorem State.resetOf_regRead_tmrCtrl (p : Params) : (State.resetOf p).regRead 0x0#4 = 0b0010#32 :=
  calc (State.resetOf p).regRead 0x0#4
    _ = Timer.reset.ctrlWord := State.regRead_tmrCtrl _
    _ = 0b0010#32 := Timer.reset_ctrlWord

/-- BLK_STATUS at reset, whatever the instance. -/
theorem State.resetOf_regRead_blkStatus (p : Params) : (State.resetOf p).regRead 0x8#4 = 0#32 :=
  calc (State.resetOf p).regRead 0x8#4
    _ = Status.reset.word := State.regRead_blkStatus _
    _ = 0#32 := Status.reset_word

/-- Settles O1: the fields by the definition of the reset state, the two packed registers by their read lemmas. -/
theorem resetValuesOfEveryInstance : Obligations.ResetValuesOfEveryInstance := by
  intro p
  have tmrCtrl := State.resetOf_regRead_tmrCtrl p
  have blkStatus := State.resetOf_regRead_blkStatus p
  exact ⟨rfl, rfl, tmrCtrl, rfl, rfl, rfl, rfl, blkStatus, rfl, rfl, rfl, rfl⟩

end Sys2Proof.Machine
end

