-- ==== Sys2Proof/Proofs/HostWords.lean ====
section
/-! Host command words (R130 to R132): the decoder accepts INIT's word, SHOW's word and the words of CLEAR, and no other; the
words left over are the reserved ones. Then what a write of a reserved word to HCMD does (R322). -/

namespace Sys2Proof

/-- The word is that of the command: INIT and SHOW have one word each, CLEAR one for each COUNT (R131). -/
def CommandWord (w : Word32) : Instr → Prop
  | .initCmd => w = 0x00000001#32
  | .showCmd => w = 0x00000002#32
  | .clearCmd count => w.toNat = count.toNat * 256 + 0x03
  | _ => False

/-- COUNT and OP make up a word whose reserved bits are 0 (R130). -/
theorem toNat_of_rsvField_eq_zero {w : Word32} (h : rsvField w = 0#4) :
    w.toNat = (countField w).toNat * 256 + (opField w).toNat := by
  have rsv : w.toNat / 16 % 16 = 0 := by rw [← rsvField_toNat, h]; rfl
  rw [countField_toNat, opField_toNat]
  omega

/-- A command without a count is read from a word that is its OP alone (R131, R132). -/
theorem toNat_of_decodeNoCount {w : Word32} {i j : Instr} (hrsv : rsvField w = 0#4)
    (h : decodeNoCount (countField w) i = .ok j) : w.toNat = (opField w).toNat ∧ j = i := by
  unfold decodeNoCount at h
  split at h
  · next hcount =>
    cases h
    have hw := toNat_of_rsvField_eq_zero hrsv
    rw [hcount] at hw
    exact ⟨by simpa using hw, rfl⟩
  · cases h

/-- Every word with CLEAR's OP and no reserved bit decodes to CLEAR of its COUNT. -/
theorem decodeHcmd_clearWord (count : BitVec 24) : decodeHcmd (count ++ 0#4 ++ 0x3#4) = .ok (.clearCmd count) := by
  simp [decodeHcmd, rsvField_hcmd, opField_hcmd, countField_hcmd]

/-- The decoder answers the command whose word it reads. -/
theorem commandWord_of_decodeHcmd {w : Word32} {i : Instr} (h : decodeHcmd w = .ok i) : CommandWord w i := by
  unfold decodeHcmd at h
  split at h
  case isFalse => cases h
  case isTrue hrsv =>
    split at h
    · next hop =>
      obtain ⟨hw, rfl⟩ := toNat_of_decodeNoCount hrsv h
      exact BitVec.eq_of_toNat_eq (hw.trans hop)
    · next hop =>
      obtain ⟨hw, rfl⟩ := toNat_of_decodeNoCount hrsv h
      exact BitVec.eq_of_toNat_eq (hw.trans hop)
    · next hop =>
      cases h
      have hw := toNat_of_rsvField_eq_zero hrsv
      rwa [hop] at hw
    · cases h

/-- The word of a command decodes to it. -/
theorem decodeHcmd_of_commandWord {w : Word32} {i : Instr} (h : CommandWord w i) : decodeHcmd w = .ok i := by
  cases i with
  | initCmd => cases h; rfl
  | showCmd => cases h; rfl
  | clearCmd count =>
    have hw : w = count ++ 0#4 ++ 0x3#4 := BitVec.eq_of_toNat_eq (h.trans (hcmd_toNat count 0x3#4).symm)
    rw [hw]
    exact decodeHcmd_clearWord count
  | _ => exact h.elim

theorem decodeHcmd_eq_ok_iff (w : Word32) (i : Instr) : decodeHcmd w = .ok i ↔ CommandWord w i :=
  ⟨commandWord_of_decodeHcmd, decodeHcmd_of_commandWord⟩

/-- No command's word is reserved. -/
theorem not_reserved_of_commandWord {w : Word32} {i : Instr} (h : CommandWord w i) : ¬ ReservedCommandWord w := by
  unfold ReservedCommandWord
  cases i with
  | initCmd => cases h; decide
  | showCmd => cases h; decide
  | clearCmd count => have hw : w.toNat = count.toNat * 256 + 0x03 := h; omega
  | _ => exact h.elim

/-- A word that is not reserved is some command's: its OP, 1, 2 or 3, says which. -/
theorem exists_commandWord_of_not_reserved {w : Word32} (h : ¬ ReservedCommandWord w) : ∃ i, CommandWord w i := by
  unfold ReservedCommandWord at h
  have hop : w.toNat % 16 = 1 ∨ w.toNat % 16 = 2 ∨ w.toNat % 16 = 3 := by omega
  obtain hinit | hshow | hclear := hop
  · have hw : w.toNat = 1 := by omega
    exact ⟨.initCmd, BitVec.eq_of_toNat_eq hw⟩
  · have hw : w.toNat = 2 := by omega
    exact ⟨.showCmd, BitVec.eq_of_toNat_eq hw⟩
  · have hw : w.toNat = (countField w).toNat * 256 + 0x03 := by rw [countField_toNat]; omega
    exact ⟨.clearCmd (countField w), hw⟩

/-- The decoder rejects the reserved words and no other (R132). -/
theorem decodeHcmd_error_iff_reserved (w : Word32) : (∃ e, decodeHcmd w = .error e) ↔ ReservedCommandWord w := by
  cases hd : decodeHcmd w with
  | ok i =>
    have hnot := not_reserved_of_commandWord (commandWord_of_decodeHcmd hd)
    simpa using hnot
  | error e =>
    have hres : ReservedCommandWord w := by
      by_contra hnot
      obtain ⟨i, hi⟩ := exists_commandWord_of_not_reserved hnot
      rw [decodeHcmd_of_commandWord hi] at hd
      cases hd
    simpa using hres

namespace Machine

/-- A reserved word written while not FAULT sets CAUSE only (R322). -/
theorem State.badCommand_of_ne_fault {s : State} (h : s.status.seqState ≠ .fault) :
    s.badCommand = s.setStatus { s.status with cause := .badCommand } := by
  obtain ⟨hfault, _⟩ | ⟨_, heq⟩ := unlessFaulted_cases s fun s => s.setStatus { s.status with cause := .badCommand }
  · exact absurd hfault h
  · exact heq

/-- A word write of index 0x9 is a write of HCMD (R50, R312). -/
theorem State.hostAccess_write_hcmd (s : State) (w : Word32) : s.hostAccess (.write .word 0x9#4 w) = s.hostCommand w := rfl

/-- A reserved word runs no command (R312). -/
theorem State.hostCommand_of_reserved (s : State) {w : Word32} (h : ReservedCommandWord w) :
    s.hostCommand w = .next s.badCommand := by
  obtain ⟨e, he⟩ := (decodeHcmd_error_iff_reserved w).mpr h
  unfold State.hostCommand
  rw [he]

/-- Settles O9: the decoder's two characterisations, and for the write of a reserved word the dispatch of HCMD. -/
theorem hostCommandWords : Obligations.HostCommandWords := by
  intro w
  refine ⟨decodeHcmd_eq_ok_iff w .initCmd, decodeHcmd_eq_ok_iff w .showCmd,
    fun count => decodeHcmd_eq_ok_iff w (.clearCmd count), decodeHcmd_error_iff_reserved w, fun s hidle hres => ?_⟩
  have hne : s.status.seqState ≠ .fault := by simp [hidle]
  calc s.hostAccess (.write .word 0x9#4 w)
    _ = s.hostCommand w := s.hostAccess_write_hcmd w
    _ = .next s.badCommand := s.hostCommand_of_reserved hres
    _ = .next (s.setStatus { s.status with cause := .badCommand }) := by rw [State.badCommand_of_ne_fault hne]

end Machine

end Sys2Proof
end

