-- ==== Sys2Proof/Proofs/Frames.lean ====
section
/-! What an instruction leaves unchanged: an observation of the state that no shared operation touches is kept by every
instruction built from it. One lemma per shared operation, so that a frame over all instructions is one case split. -/

namespace Sys2Proof.Machine

/-- Every next state the result answers shows the same `f` as `s`. -/
def Keeps {α : Type} (f : State → α) (s : State) (r : Result) : Prop := ∀ s', r = .next s' → f s' = f s

/-- The observation depends neither on upc nor on the status, which every micro-op may write: it advances, jumps or
faults. -/
structure IgnoresControl {α : Type} (f : State → α) : Prop where
  setUpc : ∀ s u, f (s.setUpc u) = f s
  setStatus : ∀ s st, f (s.setStatus st) = f s

namespace Keeps

section
variable {α : Type} {f : State → α} {s : State}

theorem next {x : State} (h : f x = f s) : Keeps f s (.next x) := by
  intro s' heq
  cases heq
  exact h

theorem withWritten {β : Type} {r : Option β} {k : β → Result} (hf : IgnoresControl f) (hk : ∀ v, Keeps f s (k v)) :
    Keeps f s (s.withWritten r k) := by
  intro s' heq
  obtain ⟨_, rfl⟩ | ⟨v, _, hv⟩ := withWritten_next heq
  · exact hf.setStatus s _
  · exact hk v s' hv

theorem withFlag {flg : BitVec 2} {k : Bool → Result} (hf : IgnoresControl f) (hk : ∀ v, Keeps f s (k v)) :
    Keeps f s (s.withFlag flg k) := by
  intro s' heq
  obtain ⟨_, rfl⟩ | ⟨v, _, hv⟩ := withFlag_next heq
  · exact hf.setStatus s _
  · exact hk v s' hv

theorem withChannel {ch : BitVec 2} {k : Result} (hf : IgnoresControl f) (hk : Keeps f s k) :
    Keeps f s (s.withChannel ch k) := by
  intro s' heq
  obtain ⟨_, rfl⟩ | ⟨_, hnext⟩ := withChannel_next heq
  · exact hf.setStatus s _
  · exact hk s' hnext

theorem waitUntil {c : Bool} (hf : IgnoresControl f) : Keeps f s (s.waitUntil c) := by
  intro s' heq
  obtain ⟨_, rfl⟩ | ⟨_, rfl⟩ := waitUntil_next heq
  · exact hf.setUpc s _
  · rfl

theorem branch {taken : Bool} {tgt : UAddr} (hf : IgnoresControl f) : Keeps f s (.next (s.branch taken tgt)) := by
  obtain ⟨_, heq⟩ | ⟨_, heq⟩ := branch_cases s taken tgt <;> exact next (heq ▸ hf.setUpc s _)

theorem unlessFaulted {k : State → State} (hk : f (k s) = f s) : Keeps f s (.next (s.unlessFaulted k)) := by
  obtain ⟨_, heq⟩ | ⟨_, heq⟩ := unlessFaulted_cases s k
  · exact next (congrArg f heq)
  · exact next ((congrArg f heq).trans hk)

end

end Keeps

/-- A refused frame start writes the status only. -/
theorem IgnoresControl.startIfConfigured {α : Type} {f : State → α} (hf : IgnoresControl f) {s : State}
    {start : State → State} (hk : f (start s) = f s) : f (s.startIfConfigured start) = f s := by
  obtain ⟨_, heq⟩ | ⟨_, heq⟩ := startIfConfigured_cases s start
  · exact (congrArg f heq).trans hk
  · exact (congrArg f heq).trans (hf.setStatus s _)

/-! The source's calls do not touch the timer. -/

@[simp] theorem srcLoad_timer (s : State) (ch : BitVec 2) : (s.srcLoad ch).2.timer = s.timer := by
  obtain ⟨src, h⟩ := srcLoad_state s ch
  rw [h, State.setEnv_timer]

@[simp] theorem srcAdvance_timer (s : State) : s.srcAdvance.2.timer = s.timer := by
  obtain ⟨src, z, h⟩ := srcAdvance_state s
  rw [h, State.setZeroCursor_timer, State.setEnv_timer]

@[simp] theorem srcHasMore_timer (s : State) (n : Nat) : (s.srcHasMore n).2.timer = s.timer := by
  obtain ⟨src, h⟩ := srcHasMore_state s n
  rw [h, State.setEnv_timer]

end Sys2Proof.Machine
end

