-- ==== Sys2Proof/Proofs/TimerFlags.lean ====
section
/-! The tick (R151) and the writers of the sticky flags (R152): the tick only sets them, TRST alone among the instructions
writes them, and of the host registers TMR_STATUS alone. -/

namespace Sys2Proof.Machine

/-! The tick. -/

@[simp] theorem State.tick_t (s : State) : s.tick.t = s.t + 1 := rfl

@[simp] theorem State.tick_timer (s : State) : s.tick.timer = s.timer.tick s.params.cntW := rfl

/-- A tick moves time, the timer and the environment. -/
theorem State.tick_frame (s : State) : ∃ env, s.tick = { s with t := s.tick.t, timer := s.tick.timer, env := env } :=
  ⟨s.tick.env, rfl⟩

/-- Settles O13: a stopped timer holds, a running one counts or wraps. -/
theorem tickUpdatesCounterAndFlags : Obligations.TickUpdatesCounterAndFlags := by
  intro s
  refine ⟨s.tick_t, fun hoff => ?stopped, fun hon hne => ?counts, fun hon heq => ?wraps, s.tick_frame⟩
  case stopped => rw [State.tick_timer, tick_disabled _ _ hoff]
  case counts => rw [State.tick_timer, tick_count _ _ hon hne]
  case wraps => simp only [State.tick_timer, tick_wrap _ _ hon heq, eq_comm]

/-! The flags. -/

/-- OVF, MA and MB. -/
def State.flags (s : State) : Bool × Bool × Bool := (s.timer.ovf, s.timer.ma, s.timer.mb)

theorem State.flags_eq_iff (s s' : State) :
    s'.flags = s.flags ↔ s'.timer.ovf = s.timer.ovf ∧ s'.timer.ma = s.timer.ma ∧ s'.timer.mb = s.timer.mb := by
  simp [State.flags]

theorem State.flags_eq_of_timer_eq {s s' : State} (h : s'.timer = s.timer) : s'.flags = s.flags := by
  simp [State.flags, h]

theorem State.flags_ignoresControl : IgnoresControl State.flags where
  setUpc _ _ := rfl
  setStatus _ _ := rfl

/-- Whether the timer is stopped, counts or wraps, a flag that is set stays set. -/
theorem tick_flags_sticky (tm : Timer) (w : Nat) :
    (tm.ovf = true → (tm.tick w).ovf = true) ∧ (tm.ma = true → (tm.tick w).ma = true) ∧
    (tm.mb = true → (tm.tick w).mb = true) := by
  cases hen : tm.en with
  | false => simp [tick_disabled tm w hen]
  | true =>
    by_cases hper : (tm.cnt + 1) % 2 ^ w = tm.per
    · simp +contextual [tick_wrap tm w hen hper]
    · simp +contextual [tick_count tm w hen hper]

/-- No instruction but TRST writes a flag. -/
theorem exec_keeps_flags {i : Instr} (s : State) (h : i ≠ .trst) : Keeps State.flags s (exec i s) := by
  have hf := State.flags_ignoresControl
  cases i with
  | trst => exact absurd rfl h
  | nop | tcfg | ten | tdis | masks | cli => exact .next rfl
  | ldbits | call | jmp | srcpd | srcsd | dlrst | pgmark | endok | endab => exact .next rfl
  | pwh | pwl | rsi | ret | dlchk => exact .withWritten hf fun _ => .next rfl
  | shl => exact .withWritten hf fun _ => .withWritten hf fun _ => .next rfl
  | waitf => exact .withFlag hf fun _ => .waitUntil hf
  | wsel => exact .withWritten hf fun _ => .waitUntil hf
  | pgwait => exact .waitUntil hf
  | bnz | bf => exact .withWritten hf fun _ => .branch hf
  | bnt => exact .branch hf
  | srcld ch => exact .withChannel hf (.next (State.flags_eq_of_timer_eq (srcLoad_timer s ch)))
  | srcadv => exact .next (State.flags_eq_of_timer_eq (srcAdvance_timer s))
  | srchas => exact .next (State.flags_eq_of_timer_eq (srcHasMore_timer s 1))
  | initCmd => exact .unlessFaulted rfl
  | showCmd | clearCmd => exact .unlessFaulted (hf.startIfConfigured rfl)

/-- Index 0x5 is TMR_STATUS (R50). -/
theorem State.regWrite_tmrStatus (s : State) (v : Word32) :
    s.regWrite 0x5#4 v = s.setTimer (s.timer.clearFlags v) := rfl

/-- No other register of the host writes a flag. -/
theorem State.regWrite_flags_of_ne (s : State) {idx : BitVec 4} (v : Word32) (h : idx ≠ 0x5#4) :
    (s.regWrite idx v).flags = s.flags := by
  unfold State.regWrite
  split
  case h_5 hidx => exact absurd (BitVec.eq_of_toNat_eq hidx) h
  all_goals rfl

/-- Settles O14: the tick is sticky, the instructions by their frame, and the registers by whether it is TMR_STATUS. -/
theorem whoWritesTheFlags : Obligations.WhoWritesTheFlags := by
  refine ⟨fun s => tick_flags_sticky s.timer s.params.cntW, fun i s s' hexec hne => ?instruction, fun s idx v => ?register⟩
  case instruction => exact (State.flags_eq_iff s s').mp (exec_keeps_flags s hne s' hexec)
  case register =>
    by_cases hidx : idx = 0x5#4
    · subst hidx
      simp [State.regWrite_tmrStatus, Timer.clearFlags]
    · have hflags := (State.flags_eq_iff _ _).mp (s.regWrite_flags_of_ne v hidx)
      simpa [hidx] using hflags

end Sys2Proof.Machine
end

