-- ==== Sys2Proof/Proofs/TimerPort.lean ====
section
/-! The timer, port and interrupt-mask micro-ops (40_timer_port.md): one equation per micro-op in the shared operations,
then its statement. -/

namespace Sys2Proof

/-! PINMASK. -/

/-- A value that fits the port is not reduced. -/
theorem Params.portBits_of_lt {p : Params} {v : Word32} (h : v.toNat < 2 ^ p.portW) : p.portBits v = v := by
  rw [Params.portBits, Nat.mod_eq_of_lt h, BitVec.ofNat_toNat, BitVec.setWidth_eq]

/-- PINMASK is the one bit PIN, where PIN is a pin of the port (R12, R40). -/
theorem Params.pinMask_eq_twoPow {p : Params} (hpin : p.pin < p.portW) (hport : p.portW ≤ 32) :
    p.pinMask = BitVec.twoPow 32 p.pin := by
  have fits : (BitVec.twoPow 32 p.pin).toNat < 2 ^ p.portW := by
    rw [BitVec.toNat_twoPow_of_lt (by omega)]
    exact Nat.pow_lt_pow_right (by omega) hpin
  exact Params.portBits_of_lt fits

theorem Params.pinMask_getLsbD {p : Params} (hpin : p.pin < p.portW) (hport : p.portW ≤ 32) (j : Nat) :
    p.pinMask.getLsbD j = decide (j = p.pin) := by
  have hlt : p.pin < 32 := by omega
  rw [Params.pinMask_eq_twoPow hpin hport, BitVec.getLsbD_twoPow]
  simp [hlt, eq_comm]

namespace Machine

/-! What each micro-op does, in the shared operations. -/

section
variable (s : State)

theorem exec_nop : exec .nop s = .next s.advance := rfl
theorem exec_tcfg : exec .tcfg s = .next (s.setTimer { s.timer with
    per := s.params.cntBits s.params.perCfg
    cmpa := s.params.cntBits s.params.t1
    cmpb := s.params.cntBits (s.params.t1 + s.params.t2) }).advance := rfl
theorem exec_trst : exec .trst s = .next (s.setTimer s.timer.restart).advance := rfl
theorem exec_ten : exec .ten s = .next (s.setTimer { s.timer with en := true }).advance := rfl
theorem exec_tdis : exec .tdis s = .next (s.setTimer { s.timer with en := false }).advance := rfl
theorem exec_waitf (flg : BitVec 2) : exec (.waitf flg) s = s.withFlag flg fun v => s.waitUntil v := rfl
theorem exec_masks : exec .masks s = .next (s.setRegs { s.regs with
    hi := some (s.port ||| s.params.pinMask)
    lo := some (s.port &&& ~~~s.params.pinMask) }).advance := rfl
theorem exec_pwh : exec .pwh s = s.withWritten s.regs.hi fun v => .next (s.portWrite v).advance := rfl
theorem exec_pwl : exec .pwl s = s.withWritten s.regs.lo fun v => .next (s.portWrite v).advance := rfl
theorem exec_cli : exec .cli s = .next ((s.setRegs { s.regs with sie := some s.ie }).setIe false).advance := rfl
theorem exec_rsi : exec .rsi s = s.withWritten s.regs.sie fun v => .next (s.setIe v).advance := rfl

end

/-! The shared operations as changes of fields. -/

theorem State.advance_eq (s : State) : s.advance = { s with upc := s.upc + 1 } := rfl

theorem State.portWrite_eq (s : State) (v : PortWord) :
    s.portWrite v = { s with port := v, trace := s.trace ++ [(s.t, v)] } := rfl

theorem waitUntil_eq_ite (s : State) (c : Bool) : s.waitUntil c = .next (if c then s.advance else s) := by
  cases c <;> rfl

theorem withFlag_of_eq_some {s : State} {flg : BitVec 2} {v : Bool} (h : s.timer.flag flg = some v) (k : Bool → Result) :
    s.withFlag flg k = k v := by
  rw [State.withFlag, h]

theorem withWritten_of_eq_none {α : Type} {s : State} {r : Option α} (h : r = none) (k : α → Result) :
    s.withWritten r k = .next { s with
      status := { s.status with seqState := .fault, done := false, cause := .unwrittenRead } } := by
  rw [h, withWritten_none, raiseFault_eq]

theorem withWritten_of_eq_some {α : Type} {s : State} {r : Option α} {v : α} (h : r = some v) (k : α → Result) :
    s.withWritten r k = k v := by
  rw [h, withWritten_some]

/-! The micro-ops. -/

/-- Settles O17: NOP is the advance of upc alone. -/
theorem nopOnlyAdvances : Obligations.NopOnlyAdvances :=
  ⟨rfl, fun s => (exec_nop s).trans (congrArg _ s.advance_eq)⟩

/-- Settles O18: the derived parameters PER_CFG and the reduction to CNT_W bits spelled out. -/
theorem tcfgLoadsTheProtocolTiming : Obligations.TcfgLoadsTheProtocolTiming := by
  refine ⟨rfl, fun s => ?_⟩
  rw [exec_tcfg, State.advance_eq]
  rfl

/-- Settles O19: TRST is the restart of the timer and the advance of upc. -/
theorem trstRestartsTheSlot : Obligations.TrstRestartsTheSlot := by
  refine ⟨rfl, fun s => ?_⟩
  rw [exec_trst, State.advance_eq]
  rfl

/-- Settles O20: both write EN and advance upc. -/
theorem tenAndTdisSwitchTheTimer : Obligations.TenAndTdisSwitchTheTimer := by
  refine ⟨rfl, rfl, fun s => ⟨?ten, ?tdis⟩⟩
  case ten => rw [exec_ten, State.advance_eq]; rfl
  case tdis => rw [exec_tdis, State.advance_eq]; rfl

/-- A wait for a flag completes where the flag is 1 and is a poll where it is 0. -/
theorem exec_waitf_of_flag {s : State} {flg : BitVec 2} {v : Bool} (h : s.timer.flag flg = some v) :
    exec (.waitf flg) s = .next (if v then { s with upc := s.upc + 1 } else s) := by
  rw [exec_waitf, withFlag_of_eq_some h, waitUntil_eq_ite, State.advance_eq]

/-- Settles O21: FLG selects the flag, and one lemma says what a wait for it does. -/
theorem waitfWaitsForItsFlag : Obligations.WaitfWaitsForItsFlag := by
  refine ⟨rfl, rfl, rfl, rfl, fun s => ⟨?ovf, ?ma, ?mb⟩⟩
  case ovf => exact exec_waitf_of_flag (flag_ovf s.timer)
  case ma => exact exec_waitf_of_flag (flag_ma s.timer)
  case mb => exact exec_waitf_of_flag (flag_mb s.timer)

/-- Settles O22: PINMASK has bit PIN alone. A bit of the port from 32 up is 0, so the complement's bits there do not
matter. -/
theorem masksAssertAndDeassertThePin : Obligations.MasksAssertAndDeassertThePin := by
  refine ⟨rfl, fun s hpin hport => ⟨_, _, exec_masks s, fun j => ⟨?hi, ?lo⟩⟩⟩
  case hi => rw [BitVec.getLsbD_or, Params.pinMask_getLsbD hpin hport]
  case lo =>
    rw [BitVec.getLsbD_and, BitVec.getLsbD_not, Params.pinMask_getLsbD hpin hport]
    by_cases hj : j < 32
    · simp [hj]
    · simp [BitVec.getLsbD_of_ge s.port j (by omega)]

/-- Settles O23: a read of HI or LO, then the port write; where the register is unwritten, the fault. -/
theorem pwhAndPwlWriteThePort : Obligations.PwhAndPwlWriteThePort := by
  refine ⟨rfl, rfl, fun s => ⟨fun v hv => ?pwh, fun v hv => ?pwl, fun hnone => ?pwhFault, fun hnone => ?pwlFault⟩⟩
  case pwh => rw [exec_pwh, withWritten_of_eq_some hv, State.portWrite_eq, State.advance_eq]
  case pwl => rw [exec_pwl, withWritten_of_eq_some hv, State.portWrite_eq, State.advance_eq]
  case pwhFault => rw [exec_pwh, withWritten_of_eq_none hnone]
  case pwlFault => rw [exec_pwl, withWritten_of_eq_none hnone]

/-- Settles O24: CLI writes SIE and IE outright, RSI reads SIE and faults where it is unwritten. -/
theorem cliSavesAndRsiRestores : Obligations.CliSavesAndRsiRestores := by
  refine ⟨rfl, rfl, fun s => ⟨?cli, fun v hv => ?rsi, fun hnone => ?rsiFault⟩⟩
  case cli => rw [exec_cli, State.advance_eq]; rfl
  case rsi => rw [exec_rsi, withWritten_of_eq_some hv, State.advance_eq]; rfl
  case rsiFault => rw [exec_rsi, withWritten_of_eq_none hnone]

end Machine

end Sys2Proof
end

/-! The byte walker micro-ops (41_byte_walker.md): the words that carry an operand, one equation per micro-op in the shared
operations, the arithmetic of bit 7, of the shift and of the count, then the statements. -/

namespace Sys2Proof

/-! Words built with `|||`, as the spec writes an operand (R120). -/

/-- An argument or-ed into an opcode's word fills the argument field. -/
theorem opcode_or_setWidth (opc : BitVec 6) (arg : BitVec 10) : (opc ++ 0#10) ||| arg.setWidth 16 = opc ++ arg := by
  have hset : arg.setWidth 16 = (0#6 ++ arg : BitVec 16) := BitVec.setWidth_eq_append (by omega)
  rw [hset, BitVec.or_append, BitVec.or_zero, BitVec.zero_or]

/-- Format UI has one immediate for each argument whose bits [9:8] are 0 (R115). -/
theorem decodeUI_zero_append (n : BitVec 8) (mk : BitVec 8 → Instr) : decodeUI (0#2 ++ n) mk = .ok (mk n) := by
  have hhigh : (0#2 ++ n).extractLsb' 8 2 = 0#2 := BitVec.extractLsb'_append_eq_left
  have hlow : (0#2 ++ n).extractLsb' 0 8 = n := BitVec.extractLsb'_append_eq_right
  rw [decodeUI, if_pos hhigh, hlow]

theorem decodeUop_ldbits (n : BitVec 8) : decodeUop (0x4400#16 ||| n.setWidth 16) = .ok (.ldbits n) := by
  have hset : n.setWidth 16 = (0#2 ++ n : BitVec 10).setWidth 16 := by
    apply BitVec.eq_of_toNat_eq
    rw [BitVec.toNat_setWidth, BitVec.toNat_setWidth, append_toNat, BitVec.toNat_zero, Nat.zero_mul, Nat.zero_add]
  have hword : 0x4400#16 ||| n.setWidth 16 = 0x11#6 ++ (0#2 ++ n) := by
    rw [hset]; exact opcode_or_setWidth 0x11#6 (0#2 ++ n)
  rw [hword, decodeUop, opcField_append, argField_append]
  exact decodeUI_zero_append n .ldbits

theorem decodeUop_bnz (tgt : UAddr) : decodeUop (0x4C00#16 ||| tgt.setWidth 16) = .ok (.bnz tgt) := by
  have hword : 0x4C00#16 ||| tgt.setWidth 16 = 0x13#6 ++ tgt := opcode_or_setWidth 0x13#6 tgt
  rw [hword, decodeUop, opcField_append, argField_append]
  rfl

theorem decodeUop_call (tgt : UAddr) : decodeUop (0x5000#16 ||| tgt.setWidth 16) = .ok (.call tgt) := by
  have hword : 0x5000#16 ||| tgt.setWidth 16 = 0x14#6 ++ tgt := opcode_or_setWidth 0x14#6 tgt
  rw [hword, decodeUop, opcField_append, argField_append]
  rfl

/-! The arithmetic of a byte. -/

/-- Bit 7 of a byte as its size. -/
theorem getLsbD_seven_eq_decide (b : Byte) : b.getLsbD 7 = decide (128 ≤ b.toNat) :=
  (BitVec.msb_eq_getLsbD_last b).symm.trans (BitVec.msb_eq_decide b)

/-- The shift by one bit doubles B mod 256 (R214). -/
theorem shiftLeft_one_eq_ofNat (b : Byte) : b <<< 1 = BitVec.ofNat 8 (2 * b.toNat % 256) := by
  apply BitVec.eq_of_toNat_eq
  simp only [BitVec.toNat_shiftLeft, BitVec.toNat_ofNat, Nat.shiftLeft_eq]
  omega

/-- The count goes down by one mod 256 (R214). -/
theorem sub_one_eq_ofNat (i : Byte) : i - 1 = BitVec.ofNat 8 ((i.toNat + 255) % 256) := by
  bv_omega

namespace Machine

/-! What each micro-op does, in the shared operations. -/

section
variable (s : State)

theorem exec_wsel : exec .wsel s = s.withWritten s.regs.b fun b => s.waitUntil (s.timer.bitMatch b) := rfl
theorem exec_ldbits (n : BitVec 8) : exec (.ldbits n) s = .next (s.setRegs { s.regs with i := some n }).advance := rfl
theorem exec_shl : exec .shl s = s.withWritten s.regs.b fun b => s.withWritten s.regs.i fun i =>
    .next (s.setRegs { s.regs with b := some (b <<< 1), i := some (i - 1) }).advance := rfl
theorem exec_bnz (tgt : UAddr) :
    exec (.bnz tgt) s = s.withWritten s.regs.i fun i => .next (s.branch (i != 0#8) tgt) := rfl
theorem exec_call (tgt : UAddr) :
    exec (.call tgt) s = .next ((s.setRegs { s.regs with lr := some (s.upc + 1) }).jump tgt) := rfl
theorem exec_ret : exec .ret s = s.withWritten s.regs.lr fun a => .next (s.jump a) := rfl

end

/-! The shared operations as changes of fields. -/

theorem State.setRegs_advance_eq (s : State) (r : SeqRegs) :
    (s.setRegs r).advance = { s with upc := s.upc + 1, regs := r } := rfl

theorem State.setRegs_jump_eq (s : State) (r : SeqRegs) (tgt : UAddr) :
    (s.setRegs r).jump tgt = { s with upc := tgt, regs := r } := rfl

theorem State.jump_eq (s : State) (tgt : UAddr) : s.jump tgt = { s with upc := tgt } := rfl

/-- A branch on "not zero" falls through at 0 alone. -/
theorem State.branch_bne_zero (s : State) (i : Byte) (tgt : UAddr) :
    s.branch (i != 0#8) tgt = { s with upc := if i = 0#8 then s.upc + 1 else tgt } := by
  by_cases hi : i = 0#8
  · rw [if_pos hi, hi]; rfl
  · rw [if_neg hi, bne_iff_ne.mpr hi]; rfl

/-! The match WSEL selects (R204). -/

theorem bitMatch_of_lt (tm : Timer) {b : Byte} (h : b.toNat < 128) : tm.bitMatch b = tm.ma := by
  rw [Timer.bitMatch, getLsbD_seven_eq_decide, decide_eq_false (by omega), if_neg Bool.false_ne_true]

theorem bitMatch_of_le (tm : Timer) {b : Byte} (h : 128 ≤ b.toNat) : tm.bitMatch b = tm.mb := by
  rw [Timer.bitMatch, getLsbD_seven_eq_decide, decide_eq_true h, if_pos rfl]

/-- WSEL with B written completes where the selected match has come and is a poll where it has not. -/
theorem exec_wsel_of_written {s : State} {b : Byte} (h : s.regs.b = some b) :
    exec .wsel s = .next (if s.timer.bitMatch b then { s with upc := s.upc + 1 } else s) := by
  rw [exec_wsel, withWritten_of_eq_some h, waitUntil_eq_ite, State.advance_eq]

/-! The micro-ops. -/

/-- Settles O25: the size of B says which match the wait is for. -/
theorem wselWaitsForTheBitsMatch : Obligations.WselWaitsForTheBitsMatch := by
  refine ⟨rfl, fun s => ⟨fun b hb hlt => ?zeroBit, fun b hb hle => ?oneBit, fun hnone => ?fault⟩⟩
  case zeroBit => rw [exec_wsel_of_written hb, bitMatch_of_lt _ hlt]
  case oneBit => rw [exec_wsel_of_written hb, bitMatch_of_le _ hle]
  case fault => rw [exec_wsel, withWritten_of_eq_none hnone]

/-- Settles O26: the immediate field is the operand, and I takes it as it stands. -/
theorem ldbitsLoadsTheCount : Obligations.LdbitsLoadsTheCount := by
  refine fun n s => ⟨decodeUop_ldbits n, ?_⟩
  rw [exec_ldbits, State.setRegs_advance_eq]

/-- Settles O27: two reads, either of which faults, then the shift and the decrement as arithmetic mod 256. -/
theorem shlConsumesOneBit : Obligations.ShlConsumesOneBit := by
  refine ⟨rfl, fun s => ⟨fun b i hb hi => ?shifts, fun hnone => ?fault⟩⟩
  case shifts =>
    rw [exec_shl, withWritten_of_eq_some hb, withWritten_of_eq_some hi, State.setRegs_advance_eq,
      shiftLeft_one_eq_ofNat, sub_one_eq_ofNat]
  case fault =>
    rw [exec_shl]
    cases hb : s.regs.b with
    | none => exact withWritten_of_eq_none rfl _
    | some b =>
      have hi : s.regs.i = none := hnone.resolve_left (by simp [hb])
      rw [withWritten_some, withWritten_of_eq_none hi]

/-- Settles O28: a read of I, then the branch on it. -/
theorem bnzLoopsWhileBitsRemain : Obligations.BnzLoopsWhileBitsRemain := by
  refine fun tgt s => ⟨decodeUop_bnz tgt, fun i hi => ?branches, fun hnone => ?fault⟩
  case branches => rw [exec_bnz, withWritten_of_eq_some hi, State.branch_bne_zero]
  case fault => rw [exec_bnz, withWritten_of_eq_none hnone]

/-- Settles O29: CALL writes LR and jumps outright, RET reads LR and faults where it is unwritten. -/
theorem callAndRet : Obligations.CallAndRet := by
  refine ⟨rfl, fun tgt s => ⟨decodeUop_call tgt, ?call, fun a ha => ?ret, fun hnone => ?retFault⟩⟩
  case call => rw [exec_call, State.setRegs_jump_eq]
  case ret => rw [exec_ret, withWritten_of_eq_some ha, State.jump_eq]
  case retFault => rw [exec_ret, withWritten_of_eq_none hnone]

end Machine

end Sys2Proof

/-! The reference micro-ROM (R290) and the frame driver micro-ops (42_frame_driver.md): the words of an image, the words that
carry an operand, one equation per micro-op in the shared operations, the answers of each kind of source, then the
statements. -/

namespace Sys2Proof

/-! Words with an operand (R120). -/

theorem decodeUop_srcld {ch : BitVec 2} : ch ≠ 3#2 → decodeUop (0x8800#16 ||| ch.setWidth 16) = .ok (.srcld ch) := by
  revert ch; decide

/-- A row of the opcode map in format UT: the operand or-ed into the row's word is the target (R116). -/
theorem decodeUop_or_target {opc : BitVec 6} {mk : UAddr → Instr}
    (hrow : ∀ w, opcField w = opc → decodeUop w = decodeUT (argField w) mk) (tgt : UAddr) :
    decodeUop ((opc ++ 0#10) ||| tgt.setWidth 16) = .ok (mk tgt) := by
  rw [opcode_or_setWidth, hrow _ (opcField_append opc tgt), argField_append, decodeUT]

theorem decodeUop_bf (tgt : UAddr) : decodeUop (0x9400#16 ||| tgt.setWidth 16) = .ok (.bf tgt) :=
  decodeUop_or_target (opc := 0x25#6) (fun w hopc => by rw [decodeUop, hopc]; rfl) tgt

theorem decodeUop_jmp (tgt : UAddr) : decodeUop (0x9800#16 ||| tgt.setWidth 16) = .ok (.jmp tgt) :=
  decodeUop_or_target (opc := 0x26#6) (fun w hopc => by rw [decodeUop, hopc]; rfl) tgt

theorem decodeUop_bnt (tgt : UAddr) : decodeUop (0x9C00#16 ||| tgt.setWidth 16) = .ok (.bnt tgt) :=
  decodeUop_or_target (opc := 0x27#6) (fun w hopc => by rw [decodeUop, hopc]; rfl) tgt

namespace Machine

/-! The words of an image. -/

/-- Past its first address an image reads as the rest of it. -/
theorem Rom.readAt_placeFrom_cons_of_ne (w : Word16) (ws : List Word16) {a b : Nat} (h : b ≠ a) :
    Rom.readAt (Rom.placeFrom a (w :: ws)) b = Rom.readAt (Rom.placeFrom (a + 1) ws) b := by
  rw [Rom.placeFrom]
  split
  · rfl
  · rw [Rom.readAt, if_neg h]

theorem Rom.readAt_placeFrom_of_lt (ws : List Word16) {a b : Nat} (h : b < a) :
    Rom.readAt (Rom.placeFrom a ws) b = Rom.filler := by
  induction ws generalizing a with
  | nil => rfl
  | cons w ws ih => rw [Rom.readAt_placeFrom_cons_of_ne w ws (by omega), ih (by omega)]

/-- A word equal to the filler has no cell, and reads as the filler all the same. -/
theorem Rom.readAt_placeFrom_cons_self (w : Word16) (ws : List Word16) (a : Nat) :
    Rom.readAt (Rom.placeFrom a (w :: ws)) a = w := by
  rw [Rom.placeFrom]
  split
  case isTrue hw => rw [Rom.readAt_placeFrom_of_lt ws (by omega), hw]
  case isFalse => rw [Rom.readAt, if_pos rfl]

theorem Rom.readAt_placeFrom (ws : List Word16) (a k : Nat) :
    Rom.readAt (Rom.placeFrom a ws) (a + k) = ws.getD k Rom.filler := by
  induction ws generalizing a k with
  | nil => rfl
  | cons w ws ih =>
    cases k with
    | zero => exact Rom.readAt_placeFrom_cons_self w ws a
    | succ k =>
      rw [Rom.readAt_placeFrom_cons_of_ne w ws (by omega), List.getD_cons_succ, ← ih (a + 1) k]
      congr 1
      omega

/-- The image of a list of words reads as the list, and as the filler from its end up (R482). -/
theorem Rom.readAt_ofWords (ws : List Word16) (a : Nat) : Rom.readAt (Rom.ofWords ws) a = ws.getD a Rom.filler := by
  rw [Rom.ofWords, ← Rom.readAt_placeFrom ws 0 a, Nat.zero_add]

/-- The words of the image in order, under any reading `g` of a word, are those of the list. -/
theorem Rom.map_readAt_ofWords {α : Type} (ws : List Word16) (g : Word16 → α) :
    ((List.range ws.length).map fun a => g (Rom.readAt (Rom.ofWords ws) a)) = ws.map g := by
  refine List.ext_getElem (by simp) fun a _ ha => ?_
  simp only [List.getElem_map, List.getElem_range, Rom.readAt_ofWords]
  rw [List.getD_eq_getElem]

/-- A word with the micro-op it decodes to. -/
def listed (w : Word16) : Word16 × Option Instr := (w, (decodeUop w).toOption)

/-- The listing of R290 up to word 0x020: no word depends on NBITS. -/
theorem Rom.frameDriverWords_listed : Rom.frameDriverWords.map listed =
    [(0xA800, some .pgwait), (0x1800, some .masks), (0x2000, some .pwl), (0x8000, some .srcpd),
     (0x8800, some (.srcld 0)), (0x2400, some .cli), (0x0400, some .tcfg), (0x0800, some .trst),
     (0x0C00, some .ten), (0xA000, some .dlrst), (0x9000, some .srchas), (0x9419, some (.bf 0x019)),
     (0x8400, some .srcsd), (0x5021, some (.call 0x021)), (0x8801, some (.srcld 1)), (0x5021, some (.call 0x021)),
     (0x8802, some (.srcld 2)), (0x5021, some (.call 0x021)), (0x8C00, some .srcadv), (0x9C18, some (.bnt 0x018)),
     (0x2800, some .rsi), (0x2400, some .cli), (0xA400, some .dlchk), (0x941D, some (.bf 0x01D)),
     (0x980A, some (.jmp 0x00A)), (0x1000, some .tdis), (0x2800, some .rsi), (0xAC00, some .pgmark),
     (0xB000, some .endok), (0x1000, some .tdis), (0x2800, some .rsi), (0xAC00, some .pgmark),
     (0xB400, some .endab)] := rfl

/-- The rest of the listing: word 0x021 is LDBITS with NBITS as its immediate. -/
theorem Rom.byteWalkerWords_listed (n : BitVec 8) : (Rom.byteWalkerWords n.toNat).map listed =
    [(0x4400 ||| n.setWidth 16, some (.ldbits n)), (0x1400, some (.waitf 0)), (0x0800, some .trst),
     (0x1C00, some .pwh), (0x4000, some .wsel), (0x2000, some .pwl), (0x4800, some .shl),
     (0x4C22, some (.bnz 0x022)), (0x5400, some .ret)] := by
  have hnbits : listed (0x4400#16 ||| n.setWidth 16) = (0x4400#16 ||| n.setWidth 16, some (.ldbits n)) := by
    rw [listed, decodeUop_ldbits]; rfl
  rw [Rom.byteWalkerWords, BitVec.ofNat_toNat, List.map_cons]
  exact congrArg (· :: _) hnbits

/-- Settles O2: a read of the image is a read of the list it is made of, whose two parts are listed above. -/
theorem referenceRomIsTheListing : Obligations.ReferenceRomIsTheListing := by
  refine fun n _ => ⟨?words, fun a ha => ?filler⟩
  case words =>
    refine (Rom.map_readAt_ofWords (Rom.frameDriverWords ++ Rom.byteWalkerWords n.toNat) listed).trans ?_
    rw [List.map_append, Rom.frameDriverWords_listed, Rom.byteWalkerWords_listed]
    rfl
  case filler =>
    rw [Rom.reference, Rom.readAt_ofWords]
    exact List.getD_eq_default _ _ ha

/-! What each micro-op does, in the shared operations. -/

section
variable (s : State)

theorem exec_srcpd : exec .srcpd s = .next (s.logCall .preDitherStep).advance := rfl
theorem exec_srcsd : exec .srcsd s = .next (s.logCall .stepDithering).advance := rfl
theorem exec_srcld (ch : BitVec 2) : exec (.srcld ch) s = s.withChannel ch
    (.next ((s.srcLoad ch).2.setRegs { (s.srcLoad ch).2.regs with b := some (s.srcLoad ch).1 }).advance) := rfl
theorem exec_srcadv :
    exec .srcadv s = .next (s.srcAdvance.2.setRegs { s.srcAdvance.2.regs with b := some s.srcAdvance.1 }).advance := rfl
theorem exec_srchas : exec .srchas s =
    .next ((s.srcHasMore 1).2.setRegs { (s.srcHasMore 1).2.regs with f := some (s.srcHasMore 1).1 }).advance := rfl
theorem exec_bf (tgt : UAddr) : exec (.bf tgt) s = s.withWritten s.regs.f fun f => .next (s.branch (!f) tgt) := rfl
theorem exec_jmp (tgt : UAddr) : exec (.jmp tgt) s = .next (s.jump tgt) := rfl
theorem exec_bnt (tgt : UAddr) : exec (.bnt tgt) s = .next (s.branch (!s.params.intTolerant) tgt) := rfl
theorem exec_dlrst : exec .dlrst s = .next (s.setRegs { s.regs with d := some s.t }).advance := rfl
theorem exec_dlchk : exec .dlchk s = s.withWritten s.regs.d fun d => .next (s.setRegs { s.regs with
    d := some (d + s.params.pixelTicks)
    f := some (onTime s.t (d + s.params.pixelTicks) s.params.abortThreshold) }).advance := rfl
theorem exec_pgwait : exec .pgwait s = s.waitUntil s.gapElapsed := rfl
theorem exec_pgmark : exec .pgmark s = .next (s.setLastMark (some s.t)).advance := rfl
theorem exec_endok : exec .endok s = .next (s.endFrame true .none) := rfl
theorem exec_endab : exec .endab s = .next (s.endFrame false .deadlineAbort).advance := rfl

end

/-! The shared operations as changes of fields. -/

theorem State.logCall_eq (s : State) (c : SrcCall) :
    s.logCall c = { s with env := { s.env with srcCalls := s.env.srcCalls ++ [c] } } := rfl

theorem withChannel_of_ne {ch : BitVec 2} (h : ch ≠ 3#2) (s : State) (k : Result) : s.withChannel ch k = k := if_neg h

/-- A branch on "is 0". -/
theorem State.branch_not (s : State) (c : Bool) (tgt : UAddr) :
    s.branch (!c) tgt = { s with upc := if c = false then tgt else s.upc + 1 } := by
  cases c <;> rfl

/-! The answers of the sources: ZERO(n) (R336), an oracle with an answer queued (log 8), RawSource (R332). -/

theorem channelOf_eq_ite (px : Pixel) (ch : BitVec 2) :
    channelOf px ch = if ch = 0#2 then px.ch0 else if ch = 1#2 then px.ch1 else px.ch2 := by
  obtain rfl | rfl | rfl | rfl : ch = 0#2 ∨ ch = 1#2 ∨ ch = 2#2 ∨ ch = 3#2 := by revert ch; decide
  all_goals rfl

theorem rawByte_of_lt {pixels : List Pixel} {p : Nat} (hp : p < pixels.length) (ch : BitVec 2) (calls : List SrcCall) :
    rawByte pixels p ch calls = channelOf pixels[p] ch := by
  rw [rawByte, List.getElem?_eq_getElem hp]

section
variable {s : State}

theorem srcLoad_of_zero {n : Nat} (hsel : s.srcSel = .zero n) (ch : BitVec 2) :
    s.srcLoad ch = (0x00#8, s.logCall (.loadChannel ch)) := by
  simp [State.srcLoad, State.logCall, hsel]

theorem srcLoad_of_oracle {v : Byte} {bs : List Byte} {more : List Bool} (hsel : s.srcSel = .host)
    (hsrc : s.env.hostSource = .oracle (v :: bs) more) (ch : BitVec 2) :
    s.srcLoad ch = (v, (s.logCall (.loadChannel ch)).setHostSource (.oracle bs more)) := by
  simp [State.srcLoad, State.logCall, hsel, hsrc]

theorem srcLoad_of_raw {px : List Pixel} {p : Nat} (hsel : s.srcSel = .host) (hsrc : s.env.hostSource = .raw px p)
    (ch : BitVec 2) :
    s.srcLoad ch =
      (rawByte px p ch (s.logCall (.loadChannel ch)).env.srcCalls, s.logCall (.loadChannel ch)) := by
  simp [State.srcLoad, State.logCall, hsel, hsrc]

theorem srcAdvance_of_zero {n : Nat} (hsel : s.srcSel = .zero n) :
    s.srcAdvance = (0x00#8, (s.logCall .advanceAndLoadChannel0).setZeroCursor (s.zeroCursor + 1)) := by
  simp [State.srcAdvance, State.logCall, hsel]

theorem srcAdvance_of_oracle {v : Byte} {bs : List Byte} {more : List Bool} (hsel : s.srcSel = .host)
    (hsrc : s.env.hostSource = .oracle (v :: bs) more) :
    s.srcAdvance = (v, (s.logCall .advanceAndLoadChannel0).setHostSource (.oracle bs more)) := by
  simp [State.srcAdvance, State.logCall, hsel, hsrc]

theorem srcAdvance_of_raw {px : List Pixel} {p : Nat} (hsel : s.srcSel = .host) (hsrc : s.env.hostSource = .raw px p) :
    s.srcAdvance =
      (rawByte px (p + 1) 0#2 (s.logCall .advanceAndLoadChannel0).env.srcCalls,
        (s.logCall .advanceAndLoadChannel0).setHostSource (.raw px (p + 1))) := by
  simp [State.srcAdvance, State.logCall, hsel, hsrc]

theorem srcHasMore_of_zero {k : Nat} (hsel : s.srcSel = .zero k) (n : Nat) :
    s.srcHasMore n = (decide (s.zeroCursor < k), s.logCall (.hasMore n)) := by
  simp only [State.srcHasMore, State.logCall, State.setEnv_srcSel, hsel]
  rfl

theorem srcHasMore_of_oracle {v : Bool} {bytes : List Byte} {ms : List Bool} (hsel : s.srcSel = .host)
    (hsrc : s.env.hostSource = .oracle bytes (v :: ms)) (n : Nat) :
    s.srcHasMore n = (v, (s.logCall (.hasMore n)).setHostSource (.oracle bytes ms)) := by
  simp [State.srcHasMore, State.logCall, hsel, hsrc]

theorem srcHasMore_of_raw {px : List Pixel} {p : Nat} (hsel : s.srcSel = .host) (hsrc : s.env.hostSource = .raw px p)
    (n : Nat) : s.srcHasMore n = (decide (p < px.length), s.logCall (.hasMore n)) := by
  simp [State.srcHasMore, State.logCall, hsel, hsrc]

/-! The source's micro-ops, from what the source answers. -/

theorem exec_srcld_of_answer {ch : BitVec 2} (hch : ch ≠ 3#2) {v : Byte} {s' : State} (h : s.srcLoad ch = (v, s')) :
    exec (.srcld ch) s = .next { s' with upc := s'.upc + 1, regs := { s'.regs with b := some v } } := by
  rw [exec_srcld, withChannel_of_ne hch, h, State.setRegs_advance_eq]

theorem exec_srcadv_of_answer {v : Byte} {s' : State} (h : s.srcAdvance = (v, s')) :
    exec .srcadv s = .next { s' with upc := s'.upc + 1, regs := { s'.regs with b := some v } } := by
  rw [exec_srcadv, h, State.setRegs_advance_eq]

theorem exec_srchas_of_answer {v : Bool} {s' : State} (h : s.srcHasMore 1 = (v, s')) :
    exec .srchas s = .next { s' with upc := s'.upc + 1, regs := { s'.regs with f := some v } } := by
  rw [exec_srchas, h, State.setRegs_advance_eq]

end

/-! The pacing guard (R278). -/

theorem gapElapsed_of_never {s : State} (h : s.lastMark = none) : s.gapElapsed = true := by
  rw [State.gapElapsed, h]

theorem gapElapsed_of_mark {s : State} {m : Nat} (h : s.lastMark = some m) :
    s.gapElapsed = decide (m + s.params.minGap ≤ s.t) := by
  rw [State.gapElapsed, h]

/-- PGWAIT completes where the gap has elapsed and is a poll where it has not. -/
theorem exec_pgwait_eq_ite (s : State) :
    exec .pgwait s = .next (if s.gapElapsed then { s with upc := s.upc + 1 } else s) := by
  rw [exec_pgwait, waitUntil_eq_ite, State.advance_eq]

/-! The micro-ops. -/

/-- Settles O30: each is one logged call and the advance of upc. -/
theorem ditherStepsOnlyCallTheSource : Obligations.DitherStepsOnlyCallTheSource := by
  refine ⟨rfl, rfl, fun s => ⟨?srcpd, ?srcsd⟩⟩
  case srcpd => rw [exec_srcpd, State.logCall_eq, State.advance_eq]
  case srcsd => rw [exec_srcsd, State.logCall_eq, State.advance_eq]

/-- Settles O31: the frame by what any call may change, the byte by what each kind of source answers. -/
theorem srcldLoadsTheChannel : Obligations.SrcldLoadsTheChannel := by
  refine ⟨rfl, fun s ch hch => ⟨decodeUop_srcld hch, ?frame, fun n hsel => ?zero, fun v bs more hsel hsrc => ?oracle,
    fun px p hp hsel hsrc => ?raw⟩⟩
  case frame =>
    obtain ⟨src, hstate⟩ := srcLoad_state s ch
    exact ⟨(s.srcLoad ch).1, src, exec_srcld_of_answer hch (Prod.snd_eq_iff.mp hstate)⟩
  case zero => exact exec_srcld_of_answer hch (srcLoad_of_zero hsel ch)
  case oracle => exact exec_srcld_of_answer hch (srcLoad_of_oracle hsel hsrc ch)
  case raw =>
    rw [← channelOf_eq_ite, exec_srcld_of_answer hch (srcLoad_of_raw hsel hsrc ch), rawByte_of_lt hp]
    rfl

/-- Settles O32: as for SRCLD; past RawSource's last pixel the byte is a free value. -/
theorem srcadvAdvancesAndLoads : Obligations.SrcadvAdvancesAndLoads := by
  refine ⟨rfl, fun s => ⟨?frame, fun n hsel => ?zero, fun v bs more hsel hsrc => ?oracle, fun px p hsel hsrc => ?raw⟩⟩
  case frame =>
    obtain ⟨src, z, hstate⟩ := srcAdvance_state s
    exact ⟨s.srcAdvance.1, src, z, exec_srcadv_of_answer (Prod.snd_eq_iff.mp hstate)⟩
  case zero => exact exec_srcadv_of_answer (srcAdvance_of_zero hsel)
  case oracle => exact exec_srcadv_of_answer (srcAdvance_of_oracle hsel hsrc)
  case raw => exact ⟨_, fun hp => rawByte_of_lt hp 0#2 _, exec_srcadv_of_answer (srcAdvance_of_raw hsel hsrc)⟩

/-- Settles O33: as for SRCLD, with the answer to hasMore(1). -/
theorem srchasAsksForMore : Obligations.SrchasAsksForMore := by
  refine ⟨rfl, fun s => ⟨?frame, fun n hsel => ?zero, fun v bytes ms hsel hsrc => ?oracle, fun px p hsel hsrc => ?raw⟩⟩
  case frame =>
    obtain ⟨src, hstate⟩ := srcHasMore_state s 1
    exact ⟨(s.srcHasMore 1).1, src, exec_srchas_of_answer (Prod.snd_eq_iff.mp hstate)⟩
  case zero => exact exec_srchas_of_answer (srcHasMore_of_zero hsel 1)
  case oracle => exact exec_srchas_of_answer (srcHasMore_of_oracle hsel hsrc 1)
  case raw => exact exec_srchas_of_answer (srcHasMore_of_raw hsel hsrc 1)

/-- Settles O34: BF and BNT are one branch on "is 0", of F and of INT_TOLERANT. -/
theorem branchesOfTheFrameDriver : Obligations.BranchesOfTheFrameDriver := by
  refine fun tgt s => ⟨decodeUop_bf tgt, decodeUop_jmp tgt, decodeUop_bnt tgt, fun f hf => ?bf, fun hnone => ?bfFault,
    ?jmp, ?bnt⟩
  case bf => rw [exec_bf, withWritten_of_eq_some hf, State.branch_not]
  case bfFault => rw [exec_bf, withWritten_of_eq_none hnone]
  case jmp => rw [exec_jmp, State.jump_eq]
  case bnt => rw [exec_bnt, State.branch_not]

/-- Settles O35: DLRST writes D outright, DLCHK reads D and faults where it is unwritten. -/
theorem deadlineMicroOps : Obligations.DeadlineMicroOps := by
  refine ⟨rfl, rfl, fun s => ⟨?dlrst, fun d d' hd hd' => ?dlchk, fun hnone => ?dlchkFault⟩⟩
  case dlrst => rw [exec_dlrst, State.setRegs_advance_eq]
  case dlchk =>
    have hpixel : d' = d + s.params.pixelTicks := hd'
    rw [exec_dlchk, withWritten_of_eq_some hd, State.setRegs_advance_eq, ← hpixel, onTime]
  case dlchkFault => rw [exec_dlchk, withWritten_of_eq_none hnone]

/-- Settles O36: the guard's condition in its three cases, and the mark. -/
theorem pacingMicroOps : Obligations.PacingMicroOps := by
  refine ⟨rfl, rfl, fun s => ⟨fun hnever => ?never, fun m hm hle => ?elapsed, fun m hm hlt => ?early, ?pgmark⟩⟩
  case never => rw [exec_pgwait_eq_ite, gapElapsed_of_never hnever, if_pos rfl]
  case elapsed => rw [exec_pgwait_eq_ite, gapElapsed_of_mark hm, decide_eq_true hle, if_pos rfl]
  case early => rw [exec_pgwait_eq_ite, gapElapsed_of_mark hm, decide_eq_false (by omega), if_neg Bool.false_ne_true]
  case pgmark => rw [exec_pgmark, State.advance_eq]; rfl

/-- Settles O37: both are the end of the frame, after which ENDAB alone moves upc. -/
theorem endMicroOps : Obligations.EndMicroOps := by
  refine ⟨rfl, rfl, fun s => ⟨?endok, ?endab⟩⟩
  case endok => rw [exec_endok, endFrame_eq]; rfl
  case endab => rw [exec_endab, State.advance_eq, endFrame_eq]; rfl

end Machine

end Sys2Proof

/-! The host commands (43_host_commands.md): Valid as R316 spells it, one equation per command in the shared operations, what
each shared operation does on either side of its condition, the host's turn, then the statements. -/

namespace Sys2Proof

/-- Valid in its terms (R316). -/
theorem Params.valid_iff (p : Params) : p.valid = true ↔
    (1 ≤ p.t1 ∧ 1 ≤ p.t2 ∧ 1 ≤ p.t3) ∧ p.t1 + p.t2 + p.t3 ≤ 2 ^ p.cntW - 1 ∧ (8 ≤ 8 + p.xtra ∧ 8 + p.xtra ≤ 255) ∧
      p.pin < p.portW ∧ p.protoOk = true := by
  simp only [Params.valid, Bool.and_eq_true, decide_eq_true_eq, and_assoc]
  rfl

namespace Machine

/-! What each command does, in the shared operations. -/

section
variable (s : State)

theorem exec_initCmd : exec .initCmd s = .next (s.unlessFaulted fun s => s.setStatus { s.status with
    cfgOk := s.params.valid
    cause := if s.params.valid then .none else .cfgInvalid }) := rfl
theorem exec_showCmd : exec .showCmd s =
    .next (s.unlessFaulted fun s => s.startIfConfigured fun s => s.startFrame .host) := rfl
theorem exec_clearCmd (count : BitVec 24) : exec (.clearCmd count) s =
    .next (s.unlessFaulted fun s => s.startIfConfigured fun s => (s.startFrame (.zero count.toNat)).setZeroCursor 0) := rfl

end

/-! The two conditions of a command: FAULT (R324) and CFG_OK (R318). -/

theorem unlessFaulted_of_fault {s : State} (h : s.status.seqState = .fault) (k : State → State) :
    s.unlessFaulted k = s := by
  obtain ⟨_, heq⟩ | ⟨hne, _⟩ := unlessFaulted_cases s k
  · exact heq
  · exact absurd h hne

theorem unlessFaulted_of_ne_fault {s : State} (h : s.status.seqState ≠ .fault) (k : State → State) :
    s.unlessFaulted k = k s := by
  obtain ⟨hfault, _⟩ | ⟨_, heq⟩ := unlessFaulted_cases s k
  · exact absurd hfault h
  · exact heq

theorem startIfConfigured_of_cfgOk {s : State} (h : s.status.cfgOk = true) (start : State → State) :
    s.startIfConfigured start = start s := if_pos h

theorem startIfConfigured_of_not_cfgOk {s : State} (h : s.status.cfgOk = false) (start : State → State) :
    s.startIfConfigured start = { s with status := { s.status with cause := .notConfigured } } :=
  if_neg (Bool.eq_false_iff.mp h)

/-! The commands. -/

section
variable {s : State} (hfault : s.status.seqState = .fault)
include hfault

theorem exec_initCmd_of_fault : exec .initCmd s = .next s := by
  rw [exec_initCmd, unlessFaulted_of_fault hfault]

theorem exec_showCmd_of_fault : exec .showCmd s = .next s := by
  rw [exec_showCmd, unlessFaulted_of_fault hfault]

theorem exec_clearCmd_of_fault (count : BitVec 24) : exec (.clearCmd count) s = .next s := by
  rw [exec_clearCmd, unlessFaulted_of_fault hfault]

end

/-- INIT while not FAULT, by the value of Valid. -/
theorem exec_initCmd_of_valid_eq {s : State} {ok : Bool} (hne : s.status.seqState ≠ .fault) (h : s.params.valid = ok) :
    exec .initCmd s = .next { s with
      status := { s.status with cfgOk := ok, cause := if ok then .none else .cfgInvalid } } := by
  rw [exec_initCmd, unlessFaulted_of_ne_fault hne, h]
  rfl

/-- Settles O38: INIT writes the value of Valid and the cause that goes with it. -/
theorem initValidatesTheConfiguration : Obligations.InitValidatesTheConfiguration := by
  refine fun s => ⟨fun hfault => ?ignored, fun hne => ⟨fun hspelled => ?valid, fun hspelled => ?invalid⟩⟩
  case ignored => exact exec_initCmd_of_fault hfault
  case valid =>
    have hvalid : s.params.valid = true := s.params.valid_iff.mpr hspelled
    exact exec_initCmd_of_valid_eq hne hvalid
  case invalid =>
    have hinvalid : s.params.valid = false := Bool.eq_false_iff.mpr (mt s.params.valid_iff.mp hspelled)
    exact exec_initCmd_of_valid_eq hne hinvalid

/-- Settles O39: SHOW passes both conditions and starts a frame, or stops at one of them. -/
theorem showStartsAFrame : Obligations.ShowStartsAFrame := by
  refine fun s => ⟨fun hfault => ?ignored, fun hne => ⟨fun hok => ?starts, fun hno => ?refused⟩⟩
  case ignored => exact exec_showCmd_of_fault hfault
  case starts => rw [exec_showCmd, unlessFaulted_of_ne_fault hne, startIfConfigured_of_cfgOk hok, startFrame_eq]
  case refused => rw [exec_showCmd, unlessFaulted_of_ne_fault hne, startIfConfigured_of_not_cfgOk hno]

/-- Settles O40: as for SHOW, with the ZERO source and its cursor. -/
theorem clearStartsAZeroFrame : Obligations.ClearStartsAZeroFrame := by
  refine fun count s => ⟨fun hfault => ?ignored, fun hne => ⟨fun hok => ?starts, fun hno => ?refused⟩⟩
  case ignored => exact exec_clearCmd_of_fault hfault count
  case starts =>
    rw [exec_clearCmd, unlessFaulted_of_ne_fault hne, startIfConfigured_of_cfgOk hok, startFrame_eq]
    rfl
  case refused => rw [exec_clearCmd, unlessFaulted_of_ne_fault hne, startIfConfigured_of_not_cfgOk hno]

/-! The dispatch of an access to HCMD (R312). -/

/-- HCMD reads 0, and the read changes nothing but what the host has learnt (R50). -/
theorem State.hostAccess_read_hcmd (s : State) : s.hostAccess (.read .word 0x9#4) =
    .next { s with env := { s.env with hostReads := s.env.hostReads ++ [(0x9#4, 0#32)] } } := rfl

theorem State.hostCommand_of_decode {s : State} {w : Word32} {i : Instr} (h : decodeHcmd w = .ok i) :
    s.hostCommand w = exec i s := by
  rw [State.hostCommand, h]

/-- A command is ignored while FAULT (R324). -/
theorem exec_of_decodeHcmd_of_fault {s : State} {w : Word32} {i : Instr} (hfault : s.status.seqState = .fault)
    (h : decodeHcmd w = .ok i) : exec i s = .next s := by
  obtain rfl | rfl | ⟨count, rfl⟩ := decodeHcmd_command h
  · exact exec_initCmd_of_fault hfault
  · exact exec_showCmd_of_fault hfault
  · exact exec_clearCmd_of_fault hfault count

/-- Whatever the word, a write of HCMD is ignored while FAULT (R312, R324). -/
theorem State.hostCommand_of_fault {s : State} (hfault : s.status.seqState = .fault) (w : Word32) :
    s.hostCommand w = .next s := by
  cases hd : decodeHcmd w with
  | ok i => rw [State.hostCommand_of_decode hd, exec_of_decodeHcmd_of_fault hfault hd]
  | error e =>
    have hres : ReservedCommandWord w := (decodeHcmd_error_iff_reserved w).mp ⟨e, hd⟩
    rw [State.hostCommand_of_reserved s hres, State.badCommand, unlessFaulted_of_fault hfault]

/-! The host's turn (R310). -/

/-- `s` with the pending choice gone and `q` the accesses the host has left. -/
def State.afterHostTurn (s : State) (q : List HostAccess) : State :=
  { s with env := { s.env with turns := s.env.turns.tail, hostQueue := q } }

@[simp] theorem State.afterHostTurn_status (s : State) (q : List HostAccess) : (s.afterHostTurn q).status = s.status := rfl

theorem canTake_host {s : State} (hrun : s.status.seqState ≠ .run) (hqueue : s.env.hostQueue ≠ []) :
    s.canTake .host = true := by
  simp [State.canTake, hrun, hqueue]

theorem hostStep_of_cons {s : State} {a : HostAccess} {q : List HostAccess} (hq : s.env.hostQueue = a :: q) :
    s.hostStep = (s.setEnv { s.env with hostQueue := q }).hostAccess a := by
  rw [State.hostStep, hq]

/-- At its turn and outside RUN, the host makes the first of its accesses. -/
theorem step_of_host_turn {s : State} {a : HostAccess} {q : List HostAccess} (hturn : s.nextTurn = .host)
    (hrun : s.status.seqState ≠ .run) (hq : s.env.hostQueue = a :: q) :
    step s = (s.afterHostTurn q).hostAccess a := by
  have hpop : s.popTurn.env.hostQueue = a :: q := hq
  have hcan : s.popTurn.canTake .host = true := canTake_host hrun (by simp [hpop])
  calc step s
    _ = s.popTurn.takeTurn .host := by rw [step, hturn]
    _ = s.popTurn.hostStep := if_pos hcan
    _ = (s.afterHostTurn q).hostAccess a := hostStep_of_cons hpop

/-- Settles O12: the host's turn is an access to HCMD, which the dispatch answers by the run state and the word. -/
theorem hostTurnRunsTheCommand : Obligations.HostTurnRunsTheCommand := by
  refine fun s q hturn hrun => ⟨fun hq => ?read, fun w hq => ?write⟩
  case read => rw [step_of_host_turn hturn hrun hq, State.hostAccess_read_hcmd]; rfl
  case write =>
    have hstep : step s = (s.afterHostTurn q).hostCommand w := by
      rw [step_of_host_turn hturn hrun hq, State.hostAccess_write_hcmd]
    refine ⟨fun hfault => ?faulted, fun hidle => ⟨fun i hi => ?command, (decodeHcmd_eq_ok_iff w .initCmd).mpr,
      (decodeHcmd_eq_ok_iff w .showCmd).mpr, fun count => (decodeHcmd_eq_ok_iff w (.clearCmd count)).mpr,
      fun hres => ?reserved⟩⟩
    case faulted => exact hstep.trans (State.hostCommand_of_fault (s := s.afterHostTurn q) hfault w)
    case command => exact hstep.trans (State.hostCommand_of_decode hi)
    case reserved =>
      have hne : (s.afterHostTurn q).status.seqState ≠ .fault := by simp [hidle]
      rw [hstep, State.hostCommand_of_reserved _ hres, State.badCommand_of_ne_fault hne]
      rfl

end Machine

end Sys2Proof

/-! The encoder's one exception (60_exceptions.md): the words that raise ILLEGAL_UOP (R405), and the reads of unwritten
registers that raise UNWRITTEN_READ (R404). -/

namespace Sys2Proof

/-! What each format requires of ARG (R112 to R115). -/

theorem toNat_of_decodeU0 {arg : BitVec 10} {i j : Instr} (h : decodeU0 arg i = .ok j) : arg.toNat = 0 := by
  unfold decodeU0 at h
  split at h
  case isTrue harg => rw [harg]; rfl
  case isFalse => cases h

/-- An argument with no bit from `n` up is below 2^n. -/
theorem toNat_lt_of_high_eq_zero {arg : BitVec 10} {n m : Nat} (hnm : n + m = 10) (hhigh : arg.extractLsb' n m = 0#m) :
    arg.toNat < 2 ^ n := by
  have hdiv : arg.toNat / 2 ^ n < 2 ^ m := Nat.div_lt_of_lt_mul (by rw [← pow_add, hnm]; exact arg.isLt)
  have hzero : arg.toNat / 2 ^ n = 0 := by
    have htoNat := congrArg BitVec.toNat hhigh
    rwa [BitVec.extractLsb'_toNat, Nat.shiftRight_eq_div_pow, Nat.mod_eq_of_lt hdiv, BitVec.toNat_zero] at htoNat
  simpa [Nat.div_eq_zero_iff] using hzero

/-- A two-bit selector that is not 3, with no bit above it. -/
theorem toNat_lt_three {arg : BitVec 10} (hhigh : arg.extractLsb' 2 8 = 0#8) (hsel : arg.extractLsb' 0 2 ≠ 3#2) :
    arg.toNat < 3 := by
  have hlt : arg.toNat < 4 := toNat_lt_of_high_eq_zero rfl hhigh
  have hne : arg.toNat ≠ 3 := fun h => hsel (by rw [BitVec.eq_of_toNat_eq (x := arg) (y := 3#10) h]; rfl)
  omega

theorem toNat_of_decodeUF {arg : BitVec 10} {mk : BitVec 2 → Instr} {j : Instr} (h : decodeUF arg mk = .ok j) :
    arg.toNat < 3 := by
  unfold decodeUF at h
  split at h
  case isTrue hhigh =>
    split at h
    case isTrue => cases h
    case isFalse hflg => exact toNat_lt_three hhigh hflg
  case isFalse => cases h

theorem toNat_of_decodeUC {arg : BitVec 10} {mk : BitVec 2 → Instr} {j : Instr} (h : decodeUC arg mk = .ok j) :
    arg.toNat < 3 := by
  unfold decodeUC at h
  split at h
  case isTrue hhigh =>
    split at h
    case isTrue => cases h
    case isFalse hch => exact toNat_lt_three hhigh hch
  case isFalse => cases h

theorem toNat_of_decodeUI {arg : BitVec 10} {mk : BitVec 8 → Instr} {j : Instr} (h : decodeUI arg mk = .ok j) :
    arg.toNat < 256 := by
  unfold decodeUI at h
  split at h
  case isTrue hhigh => exact toNat_lt_of_high_eq_zero rfl hhigh
  case isFalse => cases h

/-- The decoder answers for a mapped word only (R125): OPC picks the format, the format bounds ARG. -/
theorem mappedWord_of_decodeUop {w : Word16} {i : Instr} (h : decodeUop w = .ok i) : MappedWord w := by
  unfold decodeUop at h
  unfold MappedWord
  rw [← opcField_toNat, ← argField_toNat]
  split at h
  case h_6 hopc => exact .inr (.inl ⟨by simp [hopc], toNat_of_decodeUF h⟩)
  case h_20 hopc => exact .inr (.inl ⟨by simp [hopc], toNat_of_decodeUC h⟩)
  case h_13 hopc => exact .inr (.inr (.inl ⟨hopc, toNat_of_decodeUI h⟩))
  case h_15 hopc | h_16 hopc | h_23 hopc | h_24 hopc | h_25 hopc => exact .inr (.inr (.inr (by simp [hopc])))
  case h_32 => cases h
  all_goals
    rename_i hopc
    exact .inl ⟨by simp [hopc], toNat_of_decodeU0 h⟩

theorem decodeUop_error_of_not_mappedWord {w : Word16} (h : ¬ MappedWord w) : ∃ e, decodeUop w = .error e := by
  cases hd : decodeUop w with
  | ok i => exact absurd (mappedWord_of_decodeUop hd) h
  | error e => exact ⟨e, rfl⟩

namespace Machine

/-! The sequencer's turn (R110). -/

theorem canTake_seq {s : State} (hrun : s.status.seqState = .run) (hpre : s.env.preempt = 0) : s.canTake .seq = true := by
  simp [State.canTake, hrun, hpre]

/-- At its turn, while RUN and not preempted, the sequencer takes its step. -/
theorem step_of_seq_turn {s : State} (hturn : s.nextTurn = .seq) (hrun : s.status.seqState = .run)
    (hpre : s.env.preempt = 0) : step s = s.popTurn.seqStep := by
  have hcan : s.popTurn.canTake .seq = true := canTake_seq (s := s.popTurn) hrun hpre
  calc step s
    _ = s.popTurn.takeTurn .seq := by rw [step, hturn]
    _ = s.popTurn.seqStep := if_pos hcan

theorem seqStep_of_decode_error {s : State} {e : Reject} (h : decodeUop s.fetched = .error e) :
    s.seqStep = .next (s.clearLat.raiseFault .illegalUop) := by
  rw [State.seqStep, h]

/-- Settles O11: the decoder rejects an unmapped word, and the sequencer's step then faults without executing anything. -/
theorem illegalWordFaults : Obligations.IllegalWordFaults := by
  refine ⟨by unfold MappedWord; decide, fun s hrun hpre hturn hunmapped => ?_⟩
  obtain ⟨e, herr⟩ := decodeUop_error_of_not_mappedWord hunmapped
  have hfetched : decodeUop s.popTurn.fetched = .error e := herr
  rw [step_of_seq_turn hturn hrun hpre, seqStep_of_decode_error hfetched, raiseFault_eq]
  rfl

/-! The source's calls do not touch the status. -/

@[simp] theorem srcLoad_status (s : State) (ch : BitVec 2) : (s.srcLoad ch).2.status = s.status := by
  obtain ⟨src, h⟩ := srcLoad_state s ch
  rw [h, State.setEnv_status]

@[simp] theorem srcAdvance_status (s : State) : s.srcAdvance.2.status = s.status := by
  obtain ⟨src, z, h⟩ := srcAdvance_state s
  rw [h, State.setZeroCursor_status, State.setEnv_status]

@[simp] theorem srcHasMore_status (s : State) (n : Nat) : (s.srcHasMore n).2.status = s.status := by
  obtain ⟨src, h⟩ := srcHasMore_state s n
  rw [h, State.setEnv_status]

/-! Reads of unwritten registers (R404). -/

/-- The instruction reads a sequencer register that is unwritten: the table of R404. -/
def State.readsUnwritten (s : State) : Instr → Prop
  | .pwh => s.regs.hi = none
  | .pwl => s.regs.lo = none
  | .rsi => s.regs.sie = none
  | .wsel => s.regs.b = none
  | .shl => s.regs.b = none ∨ s.regs.i = none
  | .bnz _ => s.regs.i = none
  | .ret => s.regs.lr = none
  | .bf _ => s.regs.f = none
  | .dlchk => s.regs.d = none
  | _ => False

theorem State.readsUnwritten_iff (s : State) (i : Instr) : s.readsUnwritten i ↔
    (i = .pwh ∧ s.regs.hi = none) ∨ (i = .pwl ∧ s.regs.lo = none) ∨ (i = .rsi ∧ s.regs.sie = none) ∨
    (i = .wsel ∧ s.regs.b = none) ∨ (i = .shl ∧ (s.regs.b = none ∨ s.regs.i = none)) ∨
    (∃ tgt, i = .bnz tgt ∧ s.regs.i = none) ∨ (i = .ret ∧ s.regs.lr = none) ∨
    (∃ tgt, i = .bf tgt ∧ s.regs.f = none) ∨ (i = .dlchk ∧ s.regs.d = none) := by
  cases i <;> simp [State.readsUnwritten]

/-- From `s`, the result is the fault UNWRITTEN_READ where `p` holds, and shows another CAUSE where it does not. -/
def FaultsExactlyIf (p : Prop) (s : State) (r : Result) : Prop :=
  ∀ s', r = .next s' → (p ∧ s' = s.raiseFault .unwrittenRead) ∨ (¬ p ∧ s'.status.cause ≠ .unwrittenRead)

namespace FaultsExactlyIf

section
variable {s : State}

theorem next {x : State} (h : x.status.cause ≠ .unwrittenRead) : FaultsExactlyIf False s (.next x) := by
  intro s' heq
  cases heq
  exact .inr ⟨not_false, h⟩

/-- A read faults where its register is unwritten; else what follows it decides. -/
theorem readThen {α : Type} {p : Prop} {r : Option α} {k : α → Result} (hk : ∀ v, FaultsExactlyIf p s (k v)) :
    FaultsExactlyIf (r = none ∨ p) s (s.withWritten r k) := by
  intro s' heq
  obtain ⟨hnone, hfault⟩ | ⟨v, hsome, hv⟩ := withWritten_next heq
  · exact .inl ⟨.inl hnone, hfault⟩
  · simpa [hsome] using hk v s' hv

/-- The last read of an instruction. -/
theorem read {α : Type} {r : Option α} {k : α → Result} (hk : ∀ v, FaultsExactlyIf False s (k v)) :
    FaultsExactlyIf (r = none) s (s.withWritten r k) := by
  simpa using readThen (r := r) hk

theorem withFlag {flg : BitVec 2} {k : Bool → Result} (hk : ∀ v, FaultsExactlyIf False s (k v)) :
    FaultsExactlyIf False s (s.withFlag flg k) := by
  intro s' heq
  obtain ⟨_, rfl⟩ | ⟨v, _, hv⟩ := withFlag_next heq
  · exact .inr ⟨not_false, by simp⟩
  · exact hk v s' hv

theorem withChannel {ch : BitVec 2} {k : Result} (hk : FaultsExactlyIf False s k) :
    FaultsExactlyIf False s (s.withChannel ch k) := by
  intro s' heq
  obtain ⟨_, rfl⟩ | ⟨_, hnext⟩ := withChannel_next heq
  · exact .inr ⟨not_false, by simp⟩
  · exact hk s' hnext

end

section
variable {s : State} (hc : s.status.cause ≠ .unwrittenRead)
include hc

theorem waitUntil {c : Bool} : FaultsExactlyIf False s (s.waitUntil c) := by
  intro s' heq
  obtain ⟨_, rfl⟩ | ⟨_, rfl⟩ := waitUntil_next heq <;> exact .inr ⟨not_false, hc⟩

theorem branch {taken : Bool} {tgt : UAddr} : FaultsExactlyIf False s (.next (s.branch taken tgt)) := by
  obtain ⟨_, heq⟩ | ⟨_, heq⟩ := branch_cases s taken tgt <;> exact heq ▸ next hc

theorem unlessFaulted {k : State → State} (hk : (k s).status.cause ≠ .unwrittenRead) :
    FaultsExactlyIf False s (.next (s.unlessFaulted k)) := by
  obtain ⟨_, heq⟩ | ⟨_, heq⟩ := unlessFaulted_cases s k <;> rw [heq]
  · exact next hc
  · exact next hk

end

end FaultsExactlyIf

/-- A refused frame start raises NOT_CONFIGURED. -/
theorem startIfConfigured_cause_ne_unwrittenRead {s : State} {start : State → State}
    (h : (start s).status.cause ≠ .unwrittenRead) : (s.startIfConfigured start).status.cause ≠ .unwrittenRead := by
  obtain ⟨_, heq⟩ | ⟨_, heq⟩ := startIfConfigured_cases s start <;> rw [heq]
  · exact h
  · simp

/-- INIT raises CFG_INVALID at most. -/
theorem initCause_ne_unwrittenRead (valid : Bool) : (if valid then Cause.none else .cfgInvalid) ≠ .unwrittenRead := by
  cases valid <;> simp

/-- An instruction faults exactly at its first read of an unwritten register. -/
theorem exec_faultsExactlyIf {s : State} (i : Instr) (hc : s.status.cause ≠ .unwrittenRead) :
    FaultsExactlyIf (s.readsUnwritten i) s (exec i s) := by
  cases i with
  | pwh | pwl | rsi | ret | dlchk => exact .read fun _ => .next hc
  | shl => exact .readThen fun _ => .read fun _ => .next hc
  | wsel => exact .read fun _ => .waitUntil hc
  | bnz | bf => exact .read fun _ => .branch hc
  | nop | tcfg | trst | ten | tdis | masks | cli => exact .next hc
  | ldbits | call | jmp | srcpd | srcsd | dlrst | pgmark => exact .next hc
  | waitf => exact .withFlag fun _ => .waitUntil hc
  | pgwait => exact .waitUntil hc
  | bnt => exact .branch hc
  | srcld ch => exact .withChannel (.next (x := ((s.srcLoad ch).2.setRegs _).advance) (by simpa using hc))
  | srcadv => exact .next (x := (s.srcAdvance.2.setRegs _).advance) (by simpa using hc)
  | srchas => exact .next (x := ((s.srcHasMore 1).2.setRegs _).advance) (by simpa using hc)
  | endok | endab => exact .next nofun
  | initCmd => exact .unlessFaulted hc (initCause_ne_unwrittenRead _)
  | showCmd | clearCmd => exact .unlessFaulted hc (startIfConfigured_cause_ne_unwrittenRead nofun)

/-- Both ends of a frame leave the sequencer registers unwritten (R44). -/
theorem exec_frameEnd_regs {s s' : State} (h : exec .endok s = .next s' ∨ exec .endab s = .next s') :
    s'.regs = SeqRegs.unwritten := by
  rw [exec_endok, exec_endab] at h
  obtain h | h := h <;> cases h <;> rfl

/-- Settles O45: the two outcomes of an instruction, a fault at a read of the table or another CAUSE, exclude each other. -/
theorem exactlyTheseReadsFault : Obligations.ExactlyTheseReadsFault := by
  refine ⟨fun _ => rfl, fun _ _ => exec_frameEnd_regs, fun i s s' hc hexec => ?_⟩
  rw [← s.readsUnwritten_iff i]
  obtain ⟨hreads, rfl⟩ | ⟨hnot, hcause⟩ := exec_faultsExactlyIf i hc s' hexec
  · exact ⟨iff_of_true rfl hreads, fun _ => raiseFault_eq s _⟩
  · exact ⟨iff_of_false hcause hnot, fun h => absurd h hcause⟩

end Machine

end Sys2Proof

/-! What a step can do, said once (R92, R93): the moves of the agents, and the results of an instruction taken apart along
the shared operations it is made of. -/

namespace Sys2Proof.Machine

/-! The pending choice. -/

/-- `s` as the sequencer's step finds it: the choice is gone and the count of R412 starts anew. -/
def State.seqStart (s : State) : State := s.popTurn.clearLat

theorem State.popTurn_eq (s : State) : s.popTurn = { s with env := { s.env with turns := s.env.turns.tail } } := rfl

/-- What an agent can do does not depend on the choices left. -/
theorem canTake_popTurn (s : State) (x : Turn) : s.popTurn.canTake x = s.canTake x := by cases x <;> rfl

/-- The ideal schedule names an agent. -/
theorem autoTurn_cases (s : State) : s.autoTurn = .seq ∨ s.autoTurn = .host ∨ s.autoTurn = .tick := by
  unfold State.autoTurn
  split
  · exact .inl rfl
  · split
    · exact .inr (.inl rfl)
    · exact .inr (.inr rfl)

theorem nextTurn_ne_auto (s : State) : s.nextTurn ≠ .auto := by
  have hauto : s.autoTurn ≠ .auto := by
    obtain h | h | h := autoTurn_cases s <;> simp [h]
  unfold State.nextTurn
  split
  case h_1 | h_2 => exact hauto
  all_goals simp

/-- Where the agent of the turn can take it, the step is that agent's. -/
theorem step_of_canTake {s : State} {x : Turn} (hturn : s.nextTurn = x) (hcan : s.canTake x = true) :
    step s = s.popTurn.act x := by
  rw [step, hturn]
  exact if_pos ((canTake_popTurn s x).trans hcan)

/-- Where the agent of the turn cannot take it, nothing but the choice is gone (log 11). -/
theorem step_of_not_canTake {s : State} (hcan : s.canTake s.nextTurn = false) : step s = .next s.popTurn := by
  obtain ⟨htake, _⟩ | ⟨_, heq⟩ := step_cases s
  · rw [canTake_popTurn, hcan] at htake
    cases htake
  · exact heq

/-- A tick is never refused (R150). -/
theorem step_of_tick_turn {s : State} (hturn : s.nextTurn = .tick) : step s = .next s.popTurn.tick :=
  step_of_canTake hturn rfl

/-- Neither is a reset (R450). -/
theorem step_of_reset_turn {s : State} (hturn : s.nextTurn = .reset) : step s = .next s.popTurn.laterReset :=
  step_of_canTake hturn rfl

/-- The sequencer's step executes the micro-op at upc. -/
theorem step_of_seq_turn_of_decode {s : State} {i : Instr} (hturn : s.nextTurn = .seq) (hrun : s.status.seqState = .run)
    (hpre : s.env.preempt = 0) (hdecode : decodeUop s.fetched = .ok i) : step s = exec i s.seqStart := by
  have hfetched : decodeUop s.popTurn.fetched = .ok i := hdecode
  rw [step_of_seq_turn hturn hrun hpre, State.seqStep, hfetched]
  rfl

/-! The moves. -/

/-- Where a step from `s` can lead, by the agent whose turn it is. -/
inductive Moves (s : State) : State → Prop
  /-- The agent cannot take its turn. -/
  | passed (cannot : s.canTake s.nextTurn = false) : Moves s s.popTurn
  | ticked (turn : s.nextTurn = .tick) : Moves s s.popTurn.tick
  /-- The sequencer executes a micro-op. -/
  | executed {i : Instr} {s' : State} (turn : s.nextTurn = .seq) (run : s.status.seqState = .run)
      (unpreempted : s.env.preempt = 0) (decoded : decodeUop s.fetched = .ok i) (result : exec i s.seqStart = .next s') :
      Moves s s'
  /-- The sequencer meets an illegal word. -/
  | illegal {e : Reject} (turn : s.nextTurn = .seq) (run : s.status.seqState = .run) (unpreempted : s.env.preempt = 0)
      (rejected : decodeUop s.fetched = .error e) : Moves s (s.seqStart.raiseFault .illegalUop)
  | accessed {a : HostAccess} {q : List HostAccess} {s' : State} (turn : s.nextTurn = .host)
      (halted : s.status.seqState ≠ .run) (queue : s.env.hostQueue = a :: q)
      (result : (s.afterHostTurn q).hostAccess a = .next s') : Moves s s'
  | prepared {src : HostSource} (turn : s.nextTurn = .prepare src) (halted : s.status.seqState ≠ .run) :
      Moves s (s.popTurn.setHostSource src)
  | preempted {d : Nat} (turn : s.nextTurn = .preempt d) (run : s.status.seqState = .run) (enabled : s.ie = true)
      (unpreempted : s.env.preempt = 0) : Moves s (s.popTurn.setEnv { s.popTurn.env with preempt := d })
  | reset (turn : s.nextTurn = .reset) : Moves s s.popTurn.laterReset

theorem canTake_seq_iff (s : State) : s.canTake .seq = true ↔ s.status.seqState = .run ∧ s.env.preempt = 0 := by
  simp [State.canTake]

theorem canTake_host_iff (s : State) : s.canTake .host = true ↔ s.status.seqState ≠ .run ∧ s.env.hostQueue ≠ [] := by
  simp [State.canTake]

theorem canTake_prepare_iff (s : State) (src : HostSource) :
    s.canTake (.prepare src) = true ↔ s.status.seqState ≠ .run := by
  simp [State.canTake]

theorem canTake_preempt_iff (s : State) (d : Nat) :
    s.canTake (.preempt d) = true ↔ s.status.seqState = .run ∧ s.ie = true ∧ s.env.preempt = 0 := by
  simp [State.canTake, and_assoc]

/-- Every step is one of the moves. -/
theorem moves_of_step {s s' : State} (h : step s = .next s') : Moves s s' := by
  cases hcan : s.canTake s.nextTurn with
  | false =>
    rw [step_of_not_canTake hcan] at h
    cases h
    exact .passed hcan
  | true =>
    cases hturn : s.nextTurn with
    | auto => exact absurd hturn (nextTurn_ne_auto s)
    | tick =>
      rw [step_of_tick_turn hturn] at h
      cases h
      exact .ticked hturn
    | reset =>
      rw [step_of_reset_turn hturn] at h
      cases h
      exact .reset hturn
    | seq =>
      rw [hturn] at hcan
      obtain ⟨hrun, hpre⟩ := (canTake_seq_iff s).mp hcan
      rw [step_of_seq_turn hturn hrun hpre] at h
      obtain ⟨i, hdecode, heq⟩ | ⟨e, hdecode, heq⟩ := seqStep_cases s.popTurn
      · exact .executed hturn hrun hpre hdecode (heq.symm.trans h)
      · rw [heq] at h
        cases h
        exact .illegal hturn hrun hpre hdecode
    | host =>
      rw [hturn] at hcan
      obtain ⟨hrun, hqueue⟩ := (canTake_host_iff s).mp hcan
      obtain ⟨a, q, hq⟩ := List.exists_cons_of_ne_nil hqueue
      exact .accessed hturn hrun hq ((step_of_host_turn hturn hrun hq).symm.trans h)
    | prepare src =>
      rw [step_of_canTake hturn (hturn ▸ hcan)] at h
      rw [hturn] at hcan
      cases h
      exact .prepared hturn ((canTake_prepare_iff s src).mp hcan)
    | preempt d =>
      rw [step_of_canTake hturn (hturn ▸ hcan)] at h
      rw [hturn] at hcan
      cases h
      obtain ⟨hrun, hie, hpre⟩ := (canTake_preempt_iff s d).mp hcan
      exact .preempted hturn hrun hie hpre

/-! The results of an instruction. -/

/-- The instruction is a host command (R131). -/
def IsCommand : Instr → Prop
  | .initCmd | .showCmd | .clearCmd _ => True
  | _ => False

theorem not_isCommand_of_decodeUop {w : Word16} {i : Instr} (h : decodeUop w = .ok i) : ¬ IsCommand i := by
  obtain ⟨hinit, hshow, hclear⟩ := decodeUop_not_command h
  cases i with
  | initCmd => exact absurd rfl hinit
  | showCmd => exact absurd rfl hshow
  | clearCmd count => exact absurd rfl (hclear count)
  | _ => exact id

theorem isCommand_of_decodeHcmd {w : Word32} {i : Instr} (h : decodeHcmd w = .ok i) : IsCommand i := by
  obtain rfl | rfl | ⟨count, rfl⟩ := decodeHcmd_command h <;> exact trivial

/-- Every next state the result answers has the property. -/
def Answers (P : State → Prop) (r : Result) : Prop := ∀ s', r = .next s' → P s'

/-- The property holds of `s` itself and wherever control alone moves: a poll, another upc, a fault. -/
structure SurvivesControl (P : State → Prop) (s : State) : Prop where
  self : P s
  setUpc : ∀ u, P (s.setUpc u)
  raiseFault : ∀ c, c = .illegalUop ∨ c = .unwrittenRead → P (s.raiseFault c)

namespace Answers

section
variable {P : State → Prop} {s : State}

theorem next {x : State} (h : P x) : Answers P (.next x) := by
  intro s' heq
  cases heq
  exact h

theorem withWritten {α : Type} {r : Option α} {k : α → Result} (hP : SurvivesControl P s)
    (hk : ∀ v, r = some v → Answers P (k v)) : Answers P (s.withWritten r k) := by
  intro s' heq
  obtain ⟨_, rfl⟩ | ⟨v, hsome, hv⟩ := withWritten_next heq
  · exact hP.raiseFault _ (.inr rfl)
  · exact hk v hsome s' hv

theorem waitUntil {c : Bool} (hP : SurvivesControl P s) : Answers P (s.waitUntil c) := by
  intro s' heq
  obtain ⟨_, rfl⟩ | ⟨_, rfl⟩ := waitUntil_next heq
  · exact hP.setUpc _
  · exact hP.self

theorem withFlag {flg : BitVec 2} (hP : SurvivesControl P s) : Answers P (s.withFlag flg fun v => s.waitUntil v) := by
  intro s' heq
  obtain ⟨_, rfl⟩ | ⟨v, _, hv⟩ := withFlag_next heq
  · exact hP.raiseFault _ (.inl rfl)
  · exact waitUntil hP s' hv

theorem withChannel {ch : BitVec 2} {k : Result} (hP : SurvivesControl P s) (hk : Answers P k) :
    Answers P (s.withChannel ch k) := by
  intro s' heq
  obtain ⟨_, rfl⟩ | ⟨_, hnext⟩ := withChannel_next heq
  · exact hP.raiseFault _ (.inl rfl)
  · exact hk s' hnext

theorem branch {taken : Bool} {tgt : UAddr} (hP : SurvivesControl P s) : Answers P (.next (s.branch taken tgt)) := by
  obtain ⟨_, heq⟩ | ⟨_, heq⟩ := branch_cases s taken tgt <;> exact next (heq ▸ hP.setUpc _)

theorem unlessFaulted {k : State → State} (hself : P s) (hk : s.status.seqState ≠ .fault → P (k s)) :
    Answers P (.next (s.unlessFaulted k)) := by
  obtain ⟨_, heq⟩ | ⟨hne, heq⟩ := unlessFaulted_cases s k
  · exact heq.symm ▸ next hself
  · exact heq.symm ▸ next (hk hne)

/-- A host access reads a register, carries out a command, refuses a reserved word, or writes a register. -/
theorem hostAccess {a : HostAccess}
    (hread : ∀ idx, P (s.setEnv { s.env with hostReads := s.env.hostReads ++ [(idx, s.regRead idx)] }))
    (hcommand : ∀ i : Instr, IsCommand i → Answers P (exec i s)) (hreserved : P s.badCommand)
    (hwrite : ∀ idx v, P (s.regWrite idx v)) : Answers P (s.hostAccess a) := by
  intro s' heq
  obtain ⟨idx, _, rfl⟩ | ⟨v, i, _, hi, hexec⟩ | ⟨_, _, _, _, rfl⟩ | ⟨idx, v, _, _, rfl⟩ := hostAccess_next heq
  · exact hread idx
  · exact hcommand i (isCommand_of_decodeHcmd hi) s' hexec
  · exact hreserved
  · exact hwrite idx v

end

end Answers

theorem startIfConfigured_of {P : State → Prop} {s : State} {start : State → State}
    (hstart : s.status.cfgOk = true → P (start s)) (hrefused : P (s.setStatus { s.status with cause := .notConfigured })) :
    P (s.startIfConfigured start) := by
  obtain ⟨hok, heq⟩ | ⟨_, heq⟩ := startIfConfigured_cases s start
  · exact heq ▸ hstart hok
  · exact heq ▸ hrefused

/-! The source's micro-ops: the environment, the ZERO source's cursor, one register and upc. -/

theorem exec_srcld_form (s : State) (ch : BitVec 2) : ∃ v src, exec (.srcld ch) s = s.withChannel ch
    (.next ((s.setEnv { s.env with srcCalls := s.env.srcCalls ++ [.loadChannel ch], hostSource := src }).setRegs
      { s.regs with b := some v }).advance) := by
  obtain ⟨src, h⟩ := srcLoad_state s ch
  exact ⟨(s.srcLoad ch).1, src, by rw [exec_srcld, h]; rfl⟩

theorem exec_srcadv_form (s : State) : ∃ v src z, exec .srcadv s = .next
    (((s.setEnv { s.env with srcCalls := s.env.srcCalls ++ [.advanceAndLoadChannel0], hostSource := src }).setZeroCursor
      z).setRegs { s.regs with b := some v }).advance := by
  obtain ⟨src, z, h⟩ := srcAdvance_state s
  exact ⟨s.srcAdvance.1, src, z, by rw [exec_srcadv, h]; rfl⟩

theorem exec_srchas_form (s : State) : ∃ v src, exec .srchas s = .next
    ((s.setEnv { s.env with srcCalls := s.env.srcCalls ++ [.hasMore 1], hostSource := src }).setRegs
      { s.regs with f := some v }).advance := by
  obtain ⟨src, h⟩ := srcHasMore_state s 1
  exact ⟨(s.srcHasMore 1).1, src, by rw [exec_srchas, h]; rfl⟩

end Sys2Proof.Machine

/-! The invariant of every run: each shared operation keeps it, so each instruction, each access of the host and each move
does. A state with no tick counted and no preemption in progress is settled; every move but the tick leads from one. -/

namespace Sys2Proof

/-- The parts of R11 and R12. -/
theorem Params.wf_iff (p : Params) : p.wf = true ↔
    2 ≤ p.cntW ∧ (1 ≤ p.portW ∧ p.portW ≤ 32) ∧ p.pin < p.portW ∧ p.nbits ≤ 255 ∧ p.portInit.toNat < 2 ^ p.portW := by
  simp [Params.wf, and_assoc]

theorem Params.portInit_fits {p : Params} (h : p.wf = true) : p.portInit.toNat < 2 ^ p.portW := by
  obtain ⟨_, _, _, _, hinit⟩ := (Params.wf_iff p).mp h
  exact hinit

namespace Machine

/-! The invariant at reset (R62, R450). -/

theorem State.resetOf_inv {p : Params} (h : p.wf = true) : (State.resetOf p).Inv where
  params_wf := h
  rom_wf := State.resetOf_rom_wf p
  cnt_fits := by show 0 < 2 ^ p.cntW; positivity
  per_fits := by show 0 < 2 ^ p.cntW; positivity
  cmpa_fits := by show 0 < 2 ^ p.cntW; positivity
  cmpb_fits := by show 0 < 2 ^ p.cntW; positivity
  port_fits := Params.portInit_fits h
  hi_fits := nofun
  lo_fits := nofun
  idle_unwritten _ := rfl
  cfgOk_valid := nofun
  run_configured := nofun
  run_cause := nofun
  done_idle := nofun
  fault_cause := by simp [State.resetOf, Status.reset]
  mark_past := nofun
  trace_ordered := .nil
  trace_past := nofun
  trace_port := rfl
  lat_from_enabling _ := rfl
  preempt_run := nofun

/-- Settles O3: field by field, the registers being 0 or unwritten and the trace empty. -/
theorem invariantHoldsAfterReset : Obligations.InvariantHoldsAfterReset :=
  ⟨fun _ => State.resetOf_inv, State.resetOf_inv (by decide)⟩

/-! The parts of the state outside the environment. -/

/-- The counting registers are within CNT_W bits (R15). -/
structure Timer.Fits (tm : Timer) (w : Nat) : Prop where
  cnt : tm.cnt < 2 ^ w
  per : tm.per < 2 ^ w
  cmpa : tm.cmpa < 2 ^ w
  cmpb : tm.cmpb < 2 ^ w

theorem State.Inv.timer_fits {s : State} (h : s.Inv) : s.timer.Fits s.params.cntW :=
  ⟨h.cnt_fits, h.per_fits, h.cmpa_fits, h.cmpb_fits⟩

theorem Timer.Fits.tick {tm : Timer} {w : Nat} (h : tm.Fits w) : (tm.tick w).Fits w where
  cnt := tick_cnt_lt tm w h.cnt
  per := by rw [tick_per]; exact h.per
  cmpa := by rw [tick_cmpa]; exact h.cmpa
  cmpb := by rw [tick_cmpb]; exact h.cmpb

/-- The invariant asks of the environment only when ticks count and when a preemption can be in progress. -/
theorem State.Inv.setEnv {s : State} (h : s.Inv) {e : Env} (hlat : s.enabled = false → e.lat = 0)
    (hpre : 0 < e.preempt → s.status.seqState = .run ∧ s.ie = true) : (s.setEnv e).Inv :=
  { h with lat_from_enabling := hlat, preempt_run := hpre }

theorem State.Inv.popTurn {s : State} (h : s.Inv) : s.popTurn.Inv :=
  h.setEnv h.lat_from_enabling h.preempt_run

theorem enabled_of_halted {s : State} (h : s.status.seqState ≠ .run) : s.enabled = false := by
  simp [State.enabled, h]

theorem State.Inv.lat_of_halted {s : State} (h : s.Inv) (hne : s.status.seqState ≠ .run) : s.env.lat = 0 :=
  h.lat_from_enabling (enabled_of_halted hne)

theorem State.Inv.preempt_of_halted {s : State} (h : s.Inv) (hne : s.status.seqState ≠ .run) : s.env.preempt = 0 := by
  by_contra hpre
  exact hne (h.preempt_run (by omega)).1

/-- The invariant, with no tick counted against LAT_MAX and no preemption in progress. -/
structure State.Settled (s : State) : Prop where
  inv : s.Inv
  lat : s.env.lat = 0
  preempt : s.env.preempt = 0

theorem State.Inv.settled_setEnv {s : State} (h : s.Inv) {e : Env} (hlat : e.lat = 0) (hpre : e.preempt = 0) :
    (s.setEnv e).Settled :=
  ⟨h.setEnv (fun _ => hlat) (by omega), hlat, hpre⟩

namespace State.Settled

section
variable {s : State} {e : Env} {u : UAddr} {z : Nat} {tm : Timer} {ie done ok : Bool} {v : PortWord} {r : SeqRegs}
  {c : Cause} {src : SrcSel} (h : s.Settled)
include h

theorem setEnv (hlat : e.lat = 0) (hpre : e.preempt = 0) : (s.setEnv e).Settled := h.inv.settled_setEnv hlat hpre

theorem setUpc : (s.setUpc u).Settled :=
  ⟨{ h.inv with lat_from_enabling := fun _ => h.lat }, h.lat, h.preempt⟩

theorem setZeroCursor : (s.setZeroCursor z).Settled :=
  ⟨{ h.inv with lat_from_enabling := fun _ => h.lat }, h.lat, h.preempt⟩

theorem setTimer (htm : tm.Fits s.params.cntW) : (s.setTimer tm).Settled :=
  ⟨{ h.inv with
      cnt_fits := htm.cnt, per_fits := htm.per, cmpa_fits := htm.cmpa, cmpb_fits := htm.cmpb
      lat_from_enabling := fun _ => h.lat }, h.lat, h.preempt⟩

theorem setIe : (s.setIe ie).Settled where
  inv := { h.inv with lat_from_enabling := fun _ => h.lat, preempt_run := fun hpos => absurd h.preempt (Nat.ne_of_gt hpos) }
  lat := h.lat
  preempt := h.preempt

theorem markNow : (s.setLastMark (some s.t)).Settled where
  inv := { h.inv with mark_past := fun m hm => by cases hm; exact le_rfl, lat_from_enabling := fun _ => h.lat }
  lat := h.lat
  preempt := h.preempt

theorem portWrite (hv : v.toNat < 2 ^ s.params.portW) : (s.portWrite v).Settled where
  inv := { h.inv with
    port_fits := hv
    trace_ordered := by
      rw [State.portWrite_trace]
      refine List.pairwise_append.mpr ⟨h.inv.trace_ordered, List.pairwise_singleton .., fun a ha b hb => ?_⟩
      rw [List.mem_singleton.mp hb]
      exact h.inv.trace_past a ha
    trace_past := by
      rw [State.portWrite_trace, List.forall_mem_append]
      exact ⟨h.inv.trace_past, by simp⟩
    trace_port := by simp
    lat_from_enabling := fun _ => h.lat }
  lat := h.lat
  preempt := h.preempt

/-- The sequencer registers are written while a frame runs. -/
theorem setRegs (hrun : s.status.seqState = .run) (hhi : ∀ v, r.hi = some v → v.toNat < 2 ^ s.params.portW)
    (hlo : ∀ v, r.lo = some v → v.toNat < 2 ^ s.params.portW) : (s.setRegs r).Settled where
  inv := { h.inv with
    hi_fits := hhi
    lo_fits := hlo
    idle_unwritten := fun hidle => by rw [State.setRegs_status, hrun] at hidle; cases hidle
    lat_from_enabling := fun _ => h.lat }
  lat := h.lat
  preempt := h.preempt

theorem raiseFault (hc : c = .illegalUop ∨ c = .unwrittenRead) : (s.raiseFault c).Settled where
  inv := { h.inv with
    idle_unwritten := nofun
    run_configured := nofun
    run_cause := nofun
    done_idle := nofun
    fault_cause := by simpa using hc
    lat_from_enabling := fun _ => h.lat
    preempt_run := fun hpos => absurd h.preempt (Nat.ne_of_gt hpos) }
  lat := h.lat
  preempt := h.preempt

theorem endFrame (hc : c ≠ .illegalUop ∧ c ≠ .unwrittenRead) :
    (s.endFrame done c).Settled where
  inv := { h.inv with
    hi_fits := nofun
    lo_fits := nofun
    idle_unwritten := fun _ => rfl
    run_configured := nofun
    run_cause := nofun
    done_idle := fun _ => rfl
    fault_cause := by simp [hc]
    lat_from_enabling := fun _ => h.lat
    preempt_run := fun hpos => absurd h.preempt (Nat.ne_of_gt hpos) }
  lat := h.lat
  preempt := h.preempt

/-- A frame starts with CFG_OK (R318). -/
theorem startFrame (hok : s.status.cfgOk = true) : (s.startFrame src).Settled where
  inv := { h.inv with
    idle_unwritten := nofun
    run_configured := fun _ => hok
    run_cause := fun _ => rfl
    done_idle := nofun
    fault_cause := by simp
    lat_from_enabling := fun _ => h.lat
    preempt_run := fun hpos => absurd h.preempt (Nat.ne_of_gt hpos) }
  lat := h.lat
  preempt := h.preempt

/-- A command while not FAULT writes a cause that is no fault's, and CFG_OK only as Valid has it. -/
theorem setStatus_idle (hidle : s.status.seqState = .idle) (hok : ok = true → s.params.valid = true)
    (hc : c ≠ .illegalUop ∧ c ≠ .unwrittenRead) : (s.setStatus { s.status with cfgOk := ok, cause := c }).Settled where
  inv := { h.inv with
    cfgOk_valid := hok
    run_configured := fun hrun => by rw [State.setStatus_status, hidle] at hrun; cases hrun
    run_cause := fun hrun => by rw [State.setStatus_status, hidle] at hrun; cases hrun
    fault_cause := by simp [hidle, hc]
    lat_from_enabling := fun _ => h.lat
    preempt_run := fun hpos => absurd h.preempt (Nat.ne_of_gt hpos) }
  lat := h.lat
  preempt := h.preempt

theorem survivesControl : SurvivesControl State.Settled s where
  self := h
  setUpc _ := h.setUpc
  raiseFault _ := h.raiseFault

/-- A micro-op's write of registers other than HI and LO, then the advance of upc. -/
theorem setRegs_advance (hrun : s.status.seqState = .run) (hhi : r.hi = s.regs.hi) (hlo : r.lo = s.regs.lo) :
    (s.setRegs r).advance.Settled :=
  (h.setRegs hrun (hhi ▸ h.inv.hi_fits) (hlo ▸ h.inv.lo_fits)).setUpc

end

end State.Settled

/-! The masks fit the port (R170). -/

theorem maskHigh_fits {p : Params} {v : PortWord} (hv : v.toNat < 2 ^ p.portW) : (v ||| p.pinMask).toNat < 2 ^ p.portW := by
  rw [BitVec.toNat_or]
  exact Nat.or_lt_two_pow hv (portBits_lt p _)

theorem maskLow_fits {p : Params} {v : PortWord} (hv : v.toNat < 2 ^ p.portW) :
    (v &&& ~~~p.pinMask).toNat < 2 ^ p.portW := by
  rw [BitVec.toNat_and]
  exact lt_of_le_of_lt Nat.and_le_left hv

/-! The instructions. -/

/-- Every micro-op keeps the invariant while a frame runs. -/
theorem exec_microOp_settled {s : State} (h : s.Settled) (hrun : s.status.seqState = .run) {i : Instr}
    (hi : ¬ IsCommand i) : Answers State.Settled (exec i s) := by
  have hc := h.survivesControl
  cases i with
  | initCmd | showCmd | clearCmd => exact absurd trivial hi
  | nop | jmp => exact .next (h.setUpc)
  | tcfg =>
    have hfits : Timer.Fits { s.timer with
        per := s.params.cntBits s.params.perCfg
        cmpa := s.params.cntBits s.params.t1
        cmpb := s.params.cntBits (s.params.t1 + s.params.t2) } s.params.cntW :=
      ⟨h.inv.cnt_fits, cntBits_lt _ _, cntBits_lt _ _, cntBits_lt _ _⟩
    exact .next ((h.setTimer hfits).setUpc)
  | trst =>
    have hfits : s.timer.restart.Fits s.params.cntW := { h.inv.timer_fits with cnt := by show 0 < _; positivity }
    exact .next ((h.setTimer hfits).setUpc)
  | ten => exact .next ((h.setTimer (tm := { s.timer with en := true }) { h.inv.timer_fits with }).setUpc)
  | tdis => exact .next ((h.setTimer (tm := { s.timer with en := false }) { h.inv.timer_fits with }).setUpc)
  | masks =>
    refine .next ((h.setRegs hrun (fun v hv => ?hi) (fun v hv => ?lo)).setUpc)
    case hi => cases hv; exact maskHigh_fits h.inv.port_fits
    case lo => cases hv; exact maskLow_fits h.inv.port_fits
  | pwh => exact .withWritten hc fun v hv => .next ((h.portWrite (h.inv.hi_fits v hv)).setUpc)
  | pwl => exact .withWritten hc fun v hv => .next ((h.portWrite (h.inv.lo_fits v hv)).setUpc)
  | cli => exact .next (.setUpc (.setIe (h.setRegs hrun h.inv.hi_fits h.inv.lo_fits)))
  | rsi => exact .withWritten hc fun v _ => .next ((h.setIe).setUpc)
  | ldbits | dlrst => exact .next (h.setRegs_advance hrun rfl rfl)
  | dlchk => exact .withWritten hc fun _ _ => .next (h.setRegs_advance hrun rfl rfl)
  | shl => exact .withWritten hc fun _ _ => .withWritten hc fun _ _ => .next (h.setRegs_advance hrun rfl rfl)
  | call => exact .next (.setUpc (h.setRegs hrun h.inv.hi_fits h.inv.lo_fits))
  | ret => exact .withWritten hc fun _ _ => .next (h.setUpc)
  | waitf => exact .withFlag hc
  | wsel => exact .withWritten hc fun _ _ => .waitUntil hc
  | pgwait => exact .waitUntil hc
  | bnz | bf => exact .withWritten hc fun _ _ => .branch hc
  | bnt => exact .branch hc
  | srcpd | srcsd => exact .next (.setUpc (h.setEnv h.lat h.preempt))
  | srcld ch =>
    obtain ⟨v, src, heq⟩ := exec_srcld_form s ch
    rw [heq]
    exact .withChannel hc (.next (.setRegs_advance (h.setEnv h.lat h.preempt) hrun rfl rfl))
  | srcadv =>
    obtain ⟨v, src, z, heq⟩ := exec_srcadv_form s
    rw [heq]
    exact .next (.setRegs_advance (.setZeroCursor (h.setEnv h.lat h.preempt)) hrun rfl rfl)
  | srchas =>
    obtain ⟨v, src, heq⟩ := exec_srchas_form s
    rw [heq]
    exact .next (.setRegs_advance (h.setEnv h.lat h.preempt) hrun rfl rfl)
  | pgmark => exact .next (h.markNow.setUpc)
  | endok => exact .next (h.endFrame ⟨nofun, nofun⟩)
  | endab => exact .next (.setUpc (h.endFrame ⟨nofun, nofun⟩))

theorem idle_of_halted {s : State} (hrun : s.status.seqState ≠ .run) (hfault : s.status.seqState ≠ .fault) :
    s.status.seqState = .idle := by
  cases hs : s.status.seqState with
  | idle => rfl
  | run => exact absurd hs hrun
  | fault => exact absurd hs hfault

/-- Every host command keeps the invariant while no frame runs. -/
theorem exec_command_settled {s : State} (h : s.Settled) (hrun : s.status.seqState ≠ .run) {i : Instr} (hi : IsCommand i) :
    Answers State.Settled (exec i s) := by
  have refused (hfault : s.status.seqState ≠ .fault) :
      (s.setStatus { s.status with cause := .notConfigured }).Settled :=
    h.setStatus_idle (idle_of_halted hrun hfault) h.inv.cfgOk_valid ⟨nofun, nofun⟩
  cases i with
  | initCmd =>
    refine .unlessFaulted h fun hfault => h.setStatus_idle (idle_of_halted hrun hfault) id ?_
    cases s.params.valid <;> exact ⟨nofun, nofun⟩
  | showCmd => exact .unlessFaulted h fun hfault => startIfConfigured_of (fun hok => h.startFrame hok) (refused hfault)
  | clearCmd =>
    exact .unlessFaulted h fun hfault =>
      startIfConfigured_of (fun hok => (h.startFrame hok).setZeroCursor) (refused hfault)
  | _ => exact hi.elim

/-! The host's other accesses. -/

theorem regWrite_settled {s : State} (h : s.Settled) (idx : BitVec 4) (v : Word32) : (s.regWrite idx v).Settled := by
  have hfits := h.inv.timer_fits
  have hv := cntBits_lt s.params v.toNat
  unfold State.regWrite
  split
  · exact h.setTimer { hfits with }
  · exact h.setTimer { hfits with per := hv }
  · exact h.setTimer { hfits with cmpa := hv }
  · exact h.setTimer { hfits with cmpb := hv }
  · exact h.setTimer { hfits with }
  · exact h.portWrite (portBits_lt _ _)
  · exact h

theorem badCommand_settled {s : State} (h : s.Settled) (hrun : s.status.seqState ≠ .run) : s.badCommand.Settled := by
  by_cases hfault : s.status.seqState = .fault
  · rw [State.badCommand, unlessFaulted_of_fault hfault]
    exact h
  · rw [State.badCommand_of_ne_fault hfault]
    exact h.setStatus_idle (idle_of_halted hrun hfault) h.inv.cfgOk_valid ⟨nofun, nofun⟩

theorem hostAccess_settled {s : State} (h : s.Settled) (hrun : s.status.seqState ≠ .run) (a : HostAccess) :
    Answers State.Settled (s.hostAccess a) :=
  .hostAccess (fun _ => h.setEnv h.lat h.preempt) (fun _ => exec_command_settled h hrun) (badCommand_settled h hrun)
    (regWrite_settled h)

/-! The tick. -/

/-- A flag that is set stays set, so a wait that can complete still can. -/
theorem tick_flag_sticky (tm : Timer) (w : Nat) (flg : BitVec 2) (h : tm.flag flg ≠ some false) :
    (tm.tick w).flag flg ≠ some false := by
  obtain ⟨hovf, hma, hmb⟩ := tick_flags_sticky tm w
  revert h
  unfold Timer.flag
  split <;> simp_all

theorem tick_bitMatch_sticky (tm : Timer) (w : Nat) (b : Byte) (h : tm.bitMatch b = true) :
    (tm.tick w).bitMatch b = true := by
  obtain ⟨_, hma, hmb⟩ := tick_flags_sticky tm w
  unfold Timer.bitMatch at h ⊢
  split at h <;> simp_all

/-- Time only moves on, so a gap that has elapsed stays elapsed. -/
theorem gapElapsed_tick {s : State} (h : s.gapElapsed = true) : s.tick.gapElapsed = true := by
  cases hm : s.lastMark with
  | none => exact gapElapsed_of_never hm
  | some m =>
    rw [gapElapsed_of_mark hm, decide_eq_true_eq] at h
    have hm' : s.tick.lastMark = some m := hm
    have ht : m + s.tick.params.minGap ≤ s.tick.t := Nat.le_succ_of_le h
    rw [gapElapsed_of_mark hm']
    exact decide_eq_true ht

/-- A tick blocks no micro-op (R152, R168, R210, R278). -/
theorem blockedOn_tick {s : State} {i : Instr} (h : s.blockedOn i = false) : s.tick.blockedOn i = false := by
  cases i with
  | waitf flg =>
    simp only [State.blockedOn, beq_eq_false_iff_ne] at h ⊢
    exact tick_flag_sticky _ _ _ h
  | wsel =>
    cases hb : s.regs.b with
    | none =>
      have hb' : s.tick.regs.b = none := hb
      simp [State.blockedOn, hb']
    | some b =>
      have hb' : s.tick.regs.b = some b := hb
      simp only [State.blockedOn, hb, hb', Bool.not_eq_false'] at h ⊢
      exact tick_bitMatch_sticky _ _ _ h
  | pgwait =>
    simp only [State.blockedOn, Bool.not_eq_false'] at h ⊢
    exact gapElapsed_tick h
  | _ => rfl

/-- The sequencer is enabled at an illegal word and at a micro-op that is not blocked (R412). -/
theorem enabled_iff (s : State) : s.enabled = true ↔
    s.status.seqState = .run ∧ ∀ i, decodeUop s.fetched = .ok i → s.blockedOn i = false := by
  unfold State.enabled
  cases decodeUop s.fetched <;> simp

theorem enabled_tick {s : State} (h : s.enabled = true) : s.tick.enabled = true := by
  obtain ⟨hrun, hfree⟩ := (enabled_iff s).mp h
  exact (enabled_iff s.tick).mpr ⟨hrun, fun i hi => blockedOn_tick (hfree i hi)⟩

theorem latAfterTick_of_not_enabled {s : State} (h : s.enabled = false) (hlat : s.env.lat = 0) : s.latAfterTick = 0 := by
  simp [State.latAfterTick, h, hlat]

theorem State.Inv.tick {s : State} (h : s.Inv) : s.tick.Inv where
  params_wf := h.params_wf
  rom_wf := h.rom_wf
  cnt_fits := h.timer_fits.tick.cnt
  per_fits := h.timer_fits.tick.per
  cmpa_fits := h.timer_fits.tick.cmpa
  cmpb_fits := h.timer_fits.tick.cmpb
  port_fits := h.port_fits
  hi_fits := h.hi_fits
  lo_fits := h.lo_fits
  idle_unwritten := h.idle_unwritten
  cfgOk_valid := h.cfgOk_valid
  run_configured := h.run_configured
  run_cause := h.run_cause
  done_idle := h.done_idle
  fault_cause := h.fault_cause
  mark_past m hm := Nat.le_succ_of_le (h.mark_past m hm)
  trace_ordered := h.trace_ordered
  trace_past e he := Nat.le_succ_of_le (h.trace_past e he)
  trace_port := h.trace_port
  lat_from_enabling hoff := by
    have hoff' : s.enabled = false := by
      by_contra hon
      rw [enabled_tick (Bool.eq_true_of_not_eq_false hon)] at hoff
      cases hoff
    exact latAfterTick_of_not_enabled hoff' (h.lat_from_enabling hoff')
  preempt_run hpos := h.preempt_run (Nat.lt_of_lt_of_le hpos (Nat.sub_le _ _))

/-! The reset. -/

theorem State.Inv.laterReset {s : State} (h : s.Inv) : s.laterReset.Inv :=
  { State.resetOf_inv h.params_wf with
    rom_wf := h.rom_wf
    mark_past := nofun
    trace_ordered := by
      refine List.pairwise_append.mpr ⟨h.trace_ordered, List.pairwise_singleton .., fun a ha b hb => ?_⟩
      rw [List.mem_singleton.mp hb]
      exact h.trace_past a ha
    trace_past := by
      show ∀ e ∈ s.trace ++ [(s.t, s.params.portInit)], e.1 ≤ s.t
      rw [List.forall_mem_append]
      exact ⟨h.trace_past, by simp⟩
    trace_port := by
      show ((s.trace ++ [(s.t, s.params.portInit)]).getLast?.map Prod.snd).getD s.params.portInit = s.params.portInit
      simp }

/-- Settles O4: every move keeps the invariant; the sequencer's and the host's start from a settled state. -/
theorem stepKeepsInvariant : Obligations.StepKeepsInvariant := by
  intro s s' h hstep
  cases moves_of_step hstep with
  | passed => exact h.popTurn
  | ticked => exact h.popTurn.tick
  | executed _ hrun hpre hdecode hexec =>
    have hstart : s.seqStart.Settled := h.settled_setEnv (e := s.seqStart.env) rfl hpre
    exact (exec_microOp_settled hstart hrun (not_isCommand_of_decodeUop hdecode) s' hexec).inv
  | illegal _ _ hpre =>
    have hstart : s.seqStart.Settled := h.settled_setEnv (e := s.seqStart.env) rfl hpre
    exact (hstart.raiseFault (.inl rfl)).inv
  | @accessed a q _ _ hrun _ haccess =>
    have hstart : (s.afterHostTurn q).Settled :=
      h.settled_setEnv (e := (s.afterHostTurn q).env) (h.lat_of_halted hrun) (h.preempt_of_halted hrun)
    exact (hostAccess_settled hstart hrun a s' haccess).inv
  | prepared => exact h.popTurn.setEnv h.lat_from_enabling h.preempt_run
  | preempted _ hrun hie => exact h.popTurn.setEnv h.lat_from_enabling fun _ => ⟨hrun, hie⟩
  | reset => exact h.popTurn.laterReset

end Machine

end Sys2Proof

/-! Rules over all instructions and all agents: what an instruction can change at all, who writes the sequencer registers,
the fixed parts of the state, and the port with its trace. -/

namespace Sys2Proof.Machine

/-! What an instruction can change. -/

/-- Where a micro-op can lead from `s`: the parts it writes, then upc. -/
inductive Effect (s : State) : State → Prop
  | poll : Effect s s
  | fault (c : Cause) (hc : c = .illegalUop ∨ c = .unwrittenRead) : Effect s (s.raiseFault c)
  | control (u : UAddr) : Effect s (s.setUpc u)
  | timer (tm : Timer) (u : UAddr) : Effect s ((s.setTimer tm).setUpc u)
  | regs (r : SeqRegs) (u : UAddr) : Effect s ((s.setRegs r).setUpc u)
  | interrupts (r : SeqRegs) (ie : Bool) (u : UAddr) : Effect s (((s.setRegs r).setIe ie).setUpc u)
  | port (v : PortWord) (u : UAddr) : Effect s ((s.portWrite v).setUpc u)
  | source (calls : List SrcCall) (src : HostSource) (z : Nat) (r : SeqRegs) (u : UAddr) :
      Effect s ((((s.setEnv { s.env with srcCalls := calls, hostSource := src }).setZeroCursor z).setRegs r).setUpc u)
  | mark (m : Option Nat) (u : UAddr) : Effect s ((s.setLastMark m).setUpc u)
  | frameEnd (done : Bool) (c : Cause) (u : UAddr) : Effect s ((s.endFrame done c).setUpc u)

theorem Effect.survivesControl (s : State) : SurvivesControl (Effect s) s := ⟨.poll, .control, .fault⟩

theorem exec_microOp_effect (s : State) {i : Instr} (hi : ¬ IsCommand i) : Answers (Effect s) (exec i s) := by
  have hc := Effect.survivesControl s
  cases i with
  | initCmd | showCmd | clearCmd => exact absurd trivial hi
  | nop | jmp => exact .next (.control _)
  | tcfg | trst | ten | tdis => exact .next (.timer _ _)
  | masks | ldbits | call | dlrst => exact .next (.regs _ _)
  | shl => exact .withWritten hc fun _ _ => .withWritten hc fun _ _ => .next (.regs _ _)
  | dlchk => exact .withWritten hc fun _ _ => .next (.regs _ _)
  | cli => exact .next (.interrupts _ _ _)
  | rsi => exact .withWritten hc fun _ _ => .next (.interrupts s.regs _ _)
  | pwh | pwl => exact .withWritten hc fun _ _ => .next (.port _ _)
  | ret => exact .withWritten hc fun _ _ => .next (.control _)
  | waitf => exact .withFlag hc
  | wsel => exact .withWritten hc fun _ _ => .waitUntil hc
  | pgwait => exact .waitUntil hc
  | bnz | bf => exact .withWritten hc fun _ _ => .branch hc
  | bnt => exact .branch hc
  | srcpd | srcsd => exact .next (.source (s := s) (s.env.srcCalls ++ [_]) s.env.hostSource s.zeroCursor s.regs _)
  | srcld ch =>
    obtain ⟨v, src, heq⟩ := exec_srcld_form s ch
    exact heq ▸ .withChannel hc (.next (.source _ src s.zeroCursor _ _))
  | srcadv =>
    obtain ⟨v, src, z, heq⟩ := exec_srcadv_form s
    exact heq ▸ .next (.source _ src z _ _)
  | srchas =>
    obtain ⟨v, src, heq⟩ := exec_srchas_form s
    exact heq ▸ .next (.source _ src s.zeroCursor _ _)
  | pgmark => exact .next (.mark _ _)
  | endok => exact .next (.frameEnd _ _ s.upc)
  | endab => exact .next (.frameEnd _ _ _)

/-- Where a host command can lead from `s`: the status, and where it starts a frame SRCSEL, the ZERO cursor and upc too. -/
def CommandEffect (s s' : State) : Prop :=
  ∃ st src z u, s' = (((s.setStatus st).setSrcSel src).setZeroCursor z).setUpc u

theorem CommandEffect.status (s : State) (st : Status) : CommandEffect s (s.setStatus st) :=
  ⟨st, s.srcSel, s.zeroCursor, s.upc, rfl⟩

theorem exec_command_effect (s : State) {i : Instr} (hi : IsCommand i) : Answers (CommandEffect s) (exec i s) := by
  have self : CommandEffect s s := .status s s.status
  have start (src : SrcSel) (z : Nat) : CommandEffect s ((s.startFrame src).setZeroCursor z) := ⟨_, src, z, _, rfl⟩
  cases i with
  | initCmd => exact .unlessFaulted self fun _ => .status s _
  | showCmd => exact .unlessFaulted self fun _ => startIfConfigured_of (fun _ => start .host s.zeroCursor) (.status s _)
  | clearCmd => exact .unlessFaulted self fun _ => startIfConfigured_of (fun _ => start _ 0) (.status s _)
  | _ => exact hi.elim

/-- What no instruction writes: the parameters, the ROM, time, the schedule's part of the environment and the host's. -/
def State.fixed (s : State) : Params × Rom × Nat × List Turn × List HostAccess × List (BitVec 4 × Word32) × Nat × Nat :=
  (s.params, s.rom, s.t, s.env.turns, s.env.hostQueue, s.env.hostReads, s.env.lat, s.env.preempt)

theorem State.fixed_eq_iff (s s' : State) : s'.fixed = s.fixed ↔ s'.params = s.params ∧ s'.rom = s.rom ∧ s'.t = s.t ∧
    s'.env.turns = s.env.turns ∧ s'.env.hostQueue = s.env.hostQueue ∧ s'.env.hostReads = s.env.hostReads ∧
    s'.env.lat = s.env.lat ∧ s'.env.preempt = s.env.preempt := by
  simp [State.fixed]

theorem Effect.fixed {s s' : State} (h : Effect s s') : s'.fixed = s.fixed := by cases h <;> rfl

theorem CommandEffect.fixed {s s' : State} (h : CommandEffect s s') : s'.fixed = s.fixed := by
  obtain ⟨_, _, _, _, rfl⟩ := h
  rfl

theorem exec_keeps_fixed (i : Instr) (s : State) : Keeps State.fixed s (exec i s) := by
  intro s' hexec
  by_cases hi : IsCommand i
  · exact (exec_command_effect s hi s' hexec).fixed
  · exact (exec_microOp_effect s hi s' hexec).fixed

/-- No micro-op writes CFG_OK (R53). -/
theorem Effect.cfgOk {s s' : State} (h : Effect s s') : s'.status.cfgOk = s.status.cfgOk := by cases h <;> rfl

/-! The sequencer registers, IE and LAST_MARK (R41 to R48, R56, R57). -/

/-- The sequencer registers, IE and LAST_MARK. -/
def State.file (s : State) : SeqRegs × Bool × Option Nat := (s.regs, s.ie, s.lastMark)

theorem State.file_eq_iff (s : State) (r : SeqRegs) (ie : Bool) (m : Option Nat) :
    s.file = (r, ie, m) ↔ s.regs = r ∧ s.ie = ie ∧ s.lastMark = m := by
  simp [State.file]

/-- What the instruction may have written of them between `s` and `s'`. -/
def WrittenBy (s s' : State) : Instr → Prop
  | .srcld _ | .srcadv => ∃ b, s'.file = ({ s.regs with b := b }, s.ie, s.lastMark)
  | .shl => ∃ b i, s'.file = ({ s.regs with b := b, i := i }, s.ie, s.lastMark)
  | .ldbits _ => ∃ i, s'.file = ({ s.regs with i := i }, s.ie, s.lastMark)
  | .srchas => ∃ f, s'.file = ({ s.regs with f := f }, s.ie, s.lastMark)
  | .dlchk => ∃ d f, s'.file = ({ s.regs with d := d, f := f }, s.ie, s.lastMark)
  | .dlrst => ∃ d, s'.file = ({ s.regs with d := d }, s.ie, s.lastMark)
  | .masks => ∃ hi lo, s'.file = ({ s.regs with hi := hi, lo := lo }, s.ie, s.lastMark)
  | .call _ => ∃ lr, s'.file = ({ s.regs with lr := lr }, s.ie, s.lastMark)
  | .cli => ∃ sie ie, s'.file = ({ s.regs with sie := sie }, ie, s.lastMark)
  | .rsi => ∃ ie, s'.file = (s.regs, ie, s.lastMark)
  | .pgmark => ∃ m, s'.file = (s.regs, s.ie, m)
  | .endok | .endab => True
  | _ => s'.file = s.file

theorem writtenBy_of_file_eq {s s' : State} (i : Instr) (h : s'.file = s.file) : WrittenBy s s' i := by
  cases i with
  | srcld | srcadv | ldbits | srchas | dlrst | call | rsi | pgmark => exact ⟨_, h⟩
  | shl | dlchk | masks | cli => exact ⟨_, _, h⟩
  | endok | endab => trivial
  | _ => exact h

/-- Host commands write none of them (R318, R320). -/
theorem CommandEffect.file {s s' : State} (h : CommandEffect s s') : s'.file = s.file := by
  obtain ⟨_, _, _, _, rfl⟩ := h
  rfl

theorem exec_writtenBy (i : Instr) (s : State) : Answers (WrittenBy s · i) (exec i s) := by
  by_cases hi : IsCommand i
  · exact fun s' hexec => writtenBy_of_file_eq i (exec_command_effect s hi s' hexec).file
  have hc : SurvivesControl (WrittenBy s · i) s :=
    ⟨writtenBy_of_file_eq i rfl, fun _ => writtenBy_of_file_eq i rfl, fun _ _ => writtenBy_of_file_eq i rfl⟩
  cases i with
  | initCmd | showCmd | clearCmd => exact absurd trivial hi
  | nop | tcfg | trst | ten | tdis | jmp | srcpd | srcsd => exact .next rfl
  | endok | endab => exact .next trivial
  | ldbits | dlrst | call | pgmark => exact .next ⟨_, rfl⟩
  | masks | cli => exact .next ⟨_, _, rfl⟩
  | pwh | pwl | ret => exact .withWritten hc fun _ _ => .next rfl
  | rsi => exact .withWritten hc fun _ _ => .next ⟨_, rfl⟩
  | dlchk => exact .withWritten hc fun _ _ => .next ⟨_, _, rfl⟩
  | shl => exact .withWritten hc fun _ _ => .withWritten hc fun _ _ => .next ⟨_, _, rfl⟩
  | waitf => exact .withFlag hc
  | wsel => exact .withWritten hc fun _ _ => .waitUntil hc
  | pgwait => exact .waitUntil hc
  | bnz | bf => exact .withWritten hc fun _ _ => .branch hc
  | bnt => exact .branch hc
  | srcld ch =>
    obtain ⟨v, src, heq⟩ := exec_srcld_form s ch
    exact heq ▸ .withChannel hc (.next ⟨_, rfl⟩)
  | srcadv =>
    obtain ⟨v, src, z, heq⟩ := exec_srcadv_form s
    exact heq ▸ .next ⟨_, rfl⟩
  | srchas =>
    obtain ⟨v, src, heq⟩ := exec_srchas_form s
    exact heq ▸ .next ⟨_, rfl⟩

/-- Settles O46: the table of what each instruction writes, read by register. -/
theorem whoWritesTheSequencerRegisters : Obligations.WhoWritesTheSequencerRegisters := by
  intro i s s' hexec hok hab
  have hfile := exec_writtenBy i s s' hexec
  cases i with
  | endok => exact absurd rfl hok
  | endab => exact absurd rfl hab
  | srcld | srcadv | ldbits | srchas | dlrst | call | rsi | pgmark =>
    obtain ⟨_, heq⟩ := hfile
    obtain ⟨hregs, hie, hmark⟩ := (State.file_eq_iff ..).mp heq
    simp [hregs, hie, hmark]
  | shl | dlchk | masks | cli =>
    obtain ⟨_, _, heq⟩ := hfile
    obtain ⟨hregs, hie, hmark⟩ := (State.file_eq_iff ..).mp heq
    simp [hregs, hie, hmark]
  | _ =>
    obtain ⟨hregs, hie, hmark⟩ := (State.file_eq_iff ..).mp hfile
    simp [hregs, hie, hmark]

/-! What a move can change. -/

/-- Where an access of the host can lead from `s`. -/
inductive HostEffect (s : State) : State → Prop
  | read (reads : List (BitVec 4 × Word32)) : HostEffect s (s.setEnv { s.env with hostReads := reads })
  | command {s' : State} (h : CommandEffect s s') : HostEffect s s'
  | timer (tm : Timer) : HostEffect s (s.setTimer tm)
  | port (v : PortWord) : HostEffect s (s.portWrite v)

theorem hostAccess_effect (s : State) (a : HostAccess) : Answers (HostEffect s) (s.hostAccess a) := by
  have self : CommandEffect s s := .status s s.status
  refine .hostAccess (fun _ => .read _) (fun i hi s' hexec => .command (exec_command_effect s hi s' hexec)) ?reserved
    fun idx v => ?write
  case reserved =>
    obtain ⟨_, heq⟩ | ⟨_, heq⟩ := unlessFaulted_cases s fun s => s.setStatus { s.status with cause := .badCommand }
    all_goals rw [State.badCommand, heq]
    · exact .command self
    · exact .command (.status s _)
  case write =>
    obtain ⟨tm, heq⟩ | ⟨_, heq⟩ | heq := regWrite_cases s idx v
    · exact heq ▸ .timer tm
    · exact heq ▸ .port _
    · exact heq.symm ▸ .command self

/-- Settles O47: no effect of an agent is on the ROM or the parameters. -/
theorem romAndParametersNeverChange : Obligations.RomAndParametersNeverChange := by
  intro s s' hstep
  cases moves_of_step hstep with
  | passed | ticked | illegal | prepared | preempted | reset => exact ⟨rfl, rfl⟩
  | @executed i _ _ _ _ _ hexec =>
    obtain ⟨hparams, hrom, _⟩ := (State.fixed_eq_iff _ _).mp (exec_keeps_fixed i _ s' hexec)
    exact ⟨hrom, hparams⟩
  | @accessed a q _ _ _ _ haccess =>
    cases hostAccess_effect _ a s' haccess with
    | read | timer | port => exact ⟨rfl, rfl⟩
    | command h =>
      obtain ⟨_, _, _, _, rfl⟩ := h
      exact ⟨rfl, rfl⟩

/-! The port and its trace (R60, R172). -/

/-- From `s` to `s'` the port and the trace stay, or the port takes a value by an event of the present time. -/
def PortStep (s s' : State) : Prop :=
  (s'.port = s.port ∧ s'.trace = s.trace) ∨ (s'.t = s.t ∧ ∃ v, s'.port = v ∧ s'.trace = s.trace ++ [(s.t, v)])

theorem PortStep.keep {s s' : State} (hport : s'.port = s.port) (htrace : s'.trace = s.trace) : PortStep s s' :=
  .inl ⟨hport, htrace⟩

theorem PortStep.event {s s' : State} (v : PortWord) (ht : s'.t = s.t) (hport : s'.port = v)
    (htrace : s'.trace = s.trace ++ [(s.t, v)]) : PortStep s s' :=
  .inr ⟨ht, v, hport, htrace⟩

theorem Effect.portStep {s s' : State} (h : Effect s s') : PortStep s s' := by
  cases h with
  | port v => exact .event v rfl rfl rfl
  | _ => exact .keep rfl rfl

theorem HostEffect.portStep {s s' : State} (h : HostEffect s s') : PortStep s s' := by
  cases h with
  | port v => exact .event v rfl rfl rfl
  | read | timer => exact .keep rfl rfl
  | command h =>
    obtain ⟨_, _, _, _, rfl⟩ := h
    exact .keep rfl rfl

/-- Settles O53: a reset writes the port too; of the other moves only the sequencer's and the host's can. -/
theorem portChangesAreInTheTrace : Obligations.PortChangesAreInTheTrace := by
  intro s s' hstep
  cases moves_of_step hstep with
  | passed | ticked | illegal | prepared | preempted => exact PortStep.keep rfl rfl
  | executed _ _ _ hdecode hexec =>
    exact (exec_microOp_effect _ (not_isCommand_of_decodeUop hdecode) s' hexec).portStep
  | @accessed a _ _ _ _ _ haccess => exact (hostAccess_effect _ a s' haccess).portStep
  | reset => exact PortStep.event s.params.portInit rfl rfl rfl

/-- An event of the present time changes no level of the past. -/
theorem filter_append_of_lt {α : Type} (l : List (Nat × α)) (v : α) {t τ : Nat} (h : τ < t) :
    (l ++ [(t, v)]).filter (fun e => e.1 ≤ τ) = l.filter fun e => e.1 ≤ τ := by
  rw [List.filter_append, List.filter_singleton, decide_eq_false (by simpa using h)]
  exact List.append_nil _

/-- All the events of a run have been by now. -/
theorem State.Inv.eventsUpTo_now {s : State} (h : s.Inv) : s.eventsUpTo s.t = s.trace :=
  List.filter_eq_self.mpr fun e he => decide_eq_true (h.trace_past e he)

theorem State.Inv.lineLevelAt_now {s : State} (h : s.Inv) : s.lineLevelAt s.t = s.port.getLsbD s.params.pin := by
  rw [State.lineLevelAt, h.eventsUpTo_now, ← h.trace_port]
  cases s.trace.getLast? <;> rfl

theorem lineLevelAt_congr {s s' : State} {τ : Nat} (hparams : s'.params = s.params)
    (hevents : s'.eventsUpTo τ = s.eventsUpTo τ) : s'.lineLevelAt τ = s.lineLevelAt τ := by
  rw [State.lineLevelAt, State.lineLevelAt, hevents, hparams]

/-- Settles O54: now, by the end of the trace; in the past, by the one event a step may append. -/
theorem lineLevelIsThePinOfThePort : Obligations.LineLevelIsThePinOfThePort := by
  refine fun s s' h => ⟨h.lineLevelAt_now, fun hstep τ hτ => ?_⟩
  obtain ⟨_, hparams⟩ := romAndParametersNeverChange s s' hstep
  refine lineLevelAt_congr hparams ?_
  obtain ⟨_, htrace⟩ | ⟨_, v, _, htrace⟩ := portChangesAreInTheTrace s s' hstep
  · rw [State.eventsUpTo, htrace]
    rfl
  · rw [State.eventsUpTo, htrace]
    exact filter_append_of_lt s.trace v hτ

end Sys2Proof.Machine

/-! The schedule (R92, R93, R110, R310, R402, R410, R412, R450): whose turn it is, what each turn leaves unchanged, and the
bound of S(L) over the windows of a run. -/

namespace Sys2Proof.Machine

/-! The sequencer's turn (R110). -/

/-- With no choice pending and the micro-op not blocked, the ideal schedule gives the sequencer the turn (R14). -/
theorem nextTurn_of_free {s : State} {i : Instr} (hrun : s.status.seqState = .run) (hpre : s.env.preempt = 0)
    (hdecode : decodeUop s.fetched = .ok i) (hturns : s.env.turns = []) (hfree : s.blockedOn i = false) :
    s.nextTurn = .seq := by
  have hon : s.enabled = true := (enabled_iff s).mpr ⟨hrun, fun j hj => by
    obtain rfl : i = j := Except.ok.inj (hdecode.symm.trans hj)
    exact hfree⟩
  rw [State.nextTurn, hturns]
  show s.autoTurn = .seq
  rw [State.autoTurn, hon, canTake_seq hrun hpre]
  rfl

/-- Settles O10: the sequencer's turn is its step where it can take it, and is passed where it cannot. -/
theorem stepRunsTheDecodedMicroOp : Obligations.StepRunsTheDecodedMicroOp := by
  refine ⟨fun s i hrun hpre hdecode => ⟨fun hturn => ?_, fun hturns hfree => ?_⟩, fun s hrun hturn => ?_⟩
  · exact step_of_seq_turn_of_decode hturn hrun hpre hdecode
  · exact nextTurn_of_free hrun hpre hdecode hturns hfree
  · have hcan : s.canTake s.nextTurn = false := by
      rw [hturn]
      simp [State.canTake, hrun]
    exact step_of_not_canTake hcan

/-! A wait that starves (R154, R406). -/

/-- The two waits the timer alone can end: for a flag that is 0, and for a bit's match that is 0. -/
theorem exec_starved {s : State} {i : Instr}
    (h : (∃ flg, i = .waitf flg ∧ s.timer.flag flg = some false) ∨
      (∃ b, i = .wsel ∧ s.regs.b = some b ∧ s.timer.bitMatch b = false)) : exec i s = .next s := by
  obtain ⟨flg, rfl, hflag⟩ | ⟨b, rfl, hb, hmatch⟩ := h
  · rw [exec_waitf_of_flag hflag]
    rfl
  · rw [exec_wsel_of_written hb, hmatch]
    rfl

/-- Settles O16: the tick holds a stopped timer, the sequencer's turn is a poll, and no other agent but the reset touches
more than the environment while RUN. -/
theorem starvedWaitHangs : Obligations.StarvedWaitHangs := by
  intro s i hrun hoff hturn hdecode hwait
  have passed (hcan : s.canTake s.nextTurn = false) : ∃ t env, s.t ≤ t ∧ step s = .next { s with t := t, env := env } :=
    ⟨s.t, _, le_rfl, step_of_not_canTake hcan⟩
  cases hnext : s.nextTurn with
  | auto => exact absurd hnext (nextTurn_ne_auto s)
  | reset => exact absurd hnext hturn
  | tick =>
    have htimer : s.timer.tick s.params.cntW = s.timer := tick_disabled _ _ hoff
    refine ⟨s.t + 1, s.popTurn.tick.env, Nat.le_succ _, (step_of_tick_turn hnext).trans ?_⟩
    rw [State.tick, State.popTurn_eq]
    dsimp only
    rw [htimer]
    rfl
  | seq =>
    by_cases hpre : s.env.preempt = 0
    · have hpoll : exec i s.seqStart = .next s.seqStart := exec_starved hwait
      exact ⟨s.t, _, le_rfl, (step_of_seq_turn_of_decode hnext hrun hpre hdecode).trans hpoll⟩
    · exact passed (by simp [hnext, State.canTake, hpre])
  | host => exact passed (by simp [hnext, State.canTake, hrun])
  | prepare src => exact passed (by simp [hnext, State.canTake, hrun])
  | preempt d =>
    cases hcan : s.canTake (.preempt d) with
    | false => exact passed (hnext ▸ hcan)
    | true => exact ⟨s.t, _, le_rfl, step_of_canTake hnext hcan⟩

/-! The host while a frame runs (R310). -/

/-- Settles O48: while RUN the host's turn and its preparation are passed, and no micro-op writes what is the host's. -/
theorem hostIsBlockedWhileRunning : Obligations.HostIsBlockedWhileRunning := by
  intro s s' hrun hreset hstep
  cases moves_of_step hstep with
  | passed | ticked | preempted => exact ⟨rfl, rfl, rfl, fun _ _ => rfl⟩
  | illegal => exact ⟨rfl, rfl, rfl, fun _ _ => rfl⟩
  | @executed i _ hturn _ _ hdecode hexec =>
    obtain ⟨_, _, _, _, hqueue, hreads, _⟩ := (State.fixed_eq_iff _ _).mp (exec_keeps_fixed i _ s' hexec)
    have hcfg := (exec_microOp_effect _ (not_isCommand_of_decodeUop hdecode) s' hexec).cfgOk
    exact ⟨hqueue, hreads, hcfg, fun src hprepare => by rw [hturn] at hprepare; cases hprepare⟩
  | accessed _ halted => exact absurd hrun halted
  | prepared _ halted => exact absurd hrun halted
  | reset hturn => exact absurd hturn hreset

/-! Preemptions (R410). -/

/-- Settles O49: when a preemption can start, and that while one is in progress no turn but the tick's and the reset's is
taken. -/
theorem preemptionOnlyDelaysTheSequencer : Obligations.PreemptionOnlyDelaysTheSequencer := by
  refine ⟨fun s d hturn hno => ?dropped, fun s d hturn hrun hie hpre => ?starts, fun s s' hrun hpos hreset hstep => ?during⟩
  case dropped =>
    have hcan : s.canTake s.nextTurn = false := by
      rw [hturn]
      obtain hne | hoff := hno
      · simp [State.canTake, hne]
      · simp [State.canTake, hoff]
    exact step_of_not_canTake hcan
  case starts => exact step_of_canTake hturn ((canTake_preempt_iff s d).mpr ⟨hrun, hie, hpre⟩)
  case during =>
    have hne : s.env.preempt ≠ 0 := Nat.ne_of_gt hpos
    cases moves_of_step hstep with
    | passed => exact ⟨.inl rfl, s.timer, s.t, _, rfl⟩
    | ticked => exact ⟨.inr (Nat.sub_add_cancel hpos), _, _, _, rfl⟩
    | executed _ _ hpre | illegal _ _ hpre | preempted _ _ _ hpre => exact absurd hpre hne
    | accessed _ halted | prepared _ halted => exact absurd hrun halted
    | reset hturn => exact absurd hturn hreset

/-! FAULT (R402, R324). -/

theorem exec_command_of_fault {s : State} (hfault : s.status.seqState = .fault) {i : Instr} (hi : IsCommand i) :
    exec i s = .next s := by
  cases i with
  | initCmd => exact exec_initCmd_of_fault hfault
  | showCmd => exact exec_showCmd_of_fault hfault
  | clearCmd count => exact exec_clearCmd_of_fault hfault count
  | _ => exact hi.elim

/-- The status, upc, the sequencer registers, IE and LAST_MARK. -/
def State.sequencer (s : State) : Status × UAddr × SeqRegs × Bool × Option Nat :=
  (s.status, s.upc, s.regs, s.ie, s.lastMark)

theorem State.sequencer_eq_iff (s s' : State) : s'.sequencer = s.sequencer ↔
    s'.status = s.status ∧ s'.upc = s.upc ∧ s'.regs = s.regs ∧ s'.ie = s.ie ∧ s'.lastMark = s.lastMark := by
  simp [State.sequencer]

/-- While FAULT the host reaches the timer and the port at most. -/
theorem hostAccess_keeps_sequencer {s : State} (hfault : s.status.seqState = .fault) (a : HostAccess) :
    Answers (fun s' => s'.sequencer = s.sequencer) (s.hostAccess a) := by
  refine .hostAccess (fun _ => rfl) (fun i hi => exec_command_of_fault hfault hi ▸ .next rfl) ?reserved fun idx v => ?write
  case reserved => rw [State.badCommand, unlessFaulted_of_fault hfault]
  case write =>
    obtain ⟨_, heq⟩ | ⟨_, heq⟩ | heq := regWrite_cases s idx v <;> rw [heq] <;> rfl

/-- Settles O51: while FAULT the sequencer has no step, and the host's accesses do not reach it. -/
theorem onlyResetLeavesFault : Obligations.OnlyResetLeavesFault := by
  intro s s' hfault hstep
  have hrun : s.status.seqState ≠ .run := by simp [hfault]
  rw [← s.sequencer_eq_iff]
  cases moves_of_step hstep with
  | passed hcan => exact ⟨fun _ => rfl, fun hturn => by rw [hturn] at hcan; cases hcan⟩
  | ticked hturn => exact ⟨fun _ => rfl, fun hreset => by rw [hturn] at hreset; cases hreset⟩
  | prepared hturn => exact ⟨fun _ => rfl, fun hreset => by rw [hturn] at hreset; cases hreset⟩
  | executed _ run | illegal _ run | preempted _ run => exact absurd run hrun
  | @accessed a q _ hturn _ _ haccess =>
    exact ⟨fun _ => hostAccess_keeps_sequencer (s := s.afterHostTurn q) hfault a s' haccess,
      fun hreset => by rw [hturn] at hreset; cases hreset⟩
  | reset hturn => exact ⟨fun hno => absurd hturn hno, fun _ => rfl⟩

/-! Reset (R450). -/

/-- Settles O52: the reset turn is never passed, and the reset state is written out. -/
theorem laterResetKeepsTimeAndTrace : Obligations.LaterResetKeepsTimeAndTrace := fun _ hturn => step_of_reset_turn hturn

/-! The schedule S(L) (R412): one step's part. -/

/-- A step of the sequencer takes no time, and starts the count of ticks anew. -/
theorem step_of_seq_turn_time {s s' : State} (hturn : s.nextTurn = .seq) (hrun : s.status.seqState = .run)
    (hpre : s.env.preempt = 0) (hstep : step s = .next s') : s'.t = s.t ∧ s'.env.lat = 0 := by
  rw [step_of_seq_turn hturn hrun hpre] at hstep
  obtain ⟨i, _, heq⟩ | ⟨e, _, heq⟩ := seqStep_cases s.popTurn <;> rw [heq] at hstep
  · obtain ⟨_, _, ht, _, _, _, hlat, _⟩ := (State.fixed_eq_iff _ _).mp (exec_keeps_fixed i _ s' hstep)
    exact ⟨ht, hlat⟩
  · cases hstep
    exact ⟨rfl, rfl⟩

/-- An access of the host takes no time and counts no tick. -/
theorem HostEffect.time {s s' : State} (h : HostEffect s s') : s'.t = s.t ∧ s'.env.lat = s.env.lat := by
  cases h with
  | read | timer | port => exact ⟨rfl, rfl⟩
  | command h =>
    obtain ⟨_, _, _, _, rfl⟩ := h
    exact ⟨rfl, rfl⟩

/-- Any other turn but the tick's and the reset's takes no time and counts no tick. -/
theorem step_of_other_turn_time {s s' : State} (htick : s.nextTurn ≠ .tick) (hreset : s.nextTurn ≠ .reset)
    (hseq : s.nextTurn = .seq → s.status.seqState ≠ .run ∨ s.env.preempt ≠ 0) (hstep : step s = .next s') :
    s'.t = s.t ∧ s'.env.lat = s.env.lat := by
  have noSeq (hturn : s.nextTurn = .seq) (hrun : s.status.seqState = .run) (hpre : s.env.preempt = 0) : False := by
    obtain hne | hne := hseq hturn
    · exact hne hrun
    · exact hne hpre
  cases moves_of_step hstep with
  | passed | prepared | preempted => exact ⟨rfl, rfl⟩
  | ticked hturn => exact absurd hturn htick
  | reset hturn => exact absurd hturn hreset
  | executed hturn hrun hpre | illegal hturn hrun hpre => exact (noSeq hturn hrun hpre).elim
  | @accessed a _ _ _ _ _ haccess => exact (hostAccess_effect _ a s' haccess).time

/-- Time never goes back. -/
theorem step_time_le {s s' : State} (hstep : step s = .next s') : s.t ≤ s'.t := by
  cases moves_of_step hstep with
  | passed | prepared | preempted | illegal | reset => exact le_rfl
  | ticked => exact Nat.le_succ _
  | @executed i _ _ _ _ _ hexec =>
    obtain ⟨_, _, ht, _⟩ := (State.fixed_eq_iff _ _).mp (exec_keeps_fixed i _ s' hexec)
    exact ht.ge
  | @accessed a _ _ _ _ _ haccess => exact (hostAccess_effect _ a s' haccess).time.1.ge

/-! The schedule S(L): runs. -/

section
variable {choice : Nat → Turn} {s : State}

/-- A run that has gone further has passed here. -/
theorem runWith_reached_of_le {n m : Nat} (hnm : n ≤ m) {y : State} (hm : s.runWith choice m = .next y) :
    ∃ x, s.runWith choice n = .next x := by
  induction hnm generalizing y with
  | refl => exact ⟨y, hm⟩
  | step _ ih =>
    obtain ⟨x, hx, _⟩ := runWith_next hm
    exact ih hx

/-- A run that follows S(L) never stops, because time goes on. -/
theorem State.FollowsSchedule.reaches (h : s.FollowsSchedule choice) (n : Nat) : ∃ x, s.runWith choice n = .next x := by
  obtain ⟨m, x, _, hnm, hm, _⟩ := h.timeGoesOn n
  exact runWith_reached_of_le hnm hm

theorem runWith_params {n m : Nat} (hnm : n ≤ m) {x y : State} (hn : s.runWith choice n = .next x)
    (hm : s.runWith choice m = .next y) : y.params = x.params := by
  induction hnm generalizing y with
  | refl =>
    obtain rfl : x = y := by simpa using hn.symm.trans hm
    rfl
  | step _ ih =>
    obtain ⟨z, hz, hstep⟩ := runWith_next hm
    have hkept : y.params = z.params := (romAndParametersNeverChange _ _ hstep).2
    exact hkept.trans (ih hz)

theorem runWith_time_le {n m : Nat} (hnm : n ≤ m) {x y : State} (hn : s.runWith choice n = .next x)
    (hm : s.runWith choice m = .next y) : x.t ≤ y.t := by
  induction hnm generalizing y with
  | refl =>
    obtain rfl : x = y := by simpa using hn.symm.trans hm
    exact le_rfl
  | step _ ih =>
    obtain ⟨z, hz, hstep⟩ := runWith_next hm
    have hle : z.t ≤ y.t := step_time_le (s := z.offer _) hstep
    exact (ih hz).trans hle

/-- Time passes every bound: there is a tick after every step. -/
theorem State.FollowsSchedule.time_unbounded (h : s.FollowsSchedule choice) (T : Nat) :
    ∃ n x, s.runWith choice n = .next x ∧ T ≤ x.t := by
  induction T with
  | zero => exact ⟨0, s, rfl, Nat.zero_le _⟩
  | succ T ih =>
    obtain ⟨n, x, hn, hT⟩ := ih
    obtain ⟨m, y, z, hnm, hm, hm', htick⟩ := h.timeGoesOn n
    have hxy := runWith_time_le hnm hn hm
    exact ⟨m + 1, z, hm', by omega⟩

theorem unpreemptedTick_of_reached {n : Nat} {x : State} (h : s.runWith choice n = .next x) :
    s.unpreemptedTick choice n = (decide (x.env.preempt = 0) && decide ((x.offer (choice n)).nextTurn = .tick)) := by
  simp only [State.unpreemptedTick, h]

/-- One step of a window in which the sequencer is enabled and does not step: the count goes up exactly at a tick outside
every preemption. -/
theorem lat_step_of_waiting {n : Nat} {x y : State} (hx : s.runWith choice n = .next x)
    (hy : s.runWith choice (n + 1) = .next y) (hon : x.enabled = true) (hreset : (x.offer (choice n)).nextTurn ≠ .reset)
    (hseq : (x.offer (choice n)).nextTurn = .seq → 0 < x.env.preempt) :
    y.env.lat = x.env.lat + (s.unpreemptedTick choice n).toNat := by
  rw [runWith_succ hx] at hy
  rw [unpreemptedTick_of_reached hx]
  by_cases htick : (x.offer (choice n)).nextTurn = .tick
  · rw [step_of_tick_turn htick] at hy
    cases hy
    show x.latAfterTick = _
    by_cases hpre : x.env.preempt = 0 <;> simp [State.latAfterTick, hon, htick, hpre]
  · have hother := step_of_other_turn_time htick hreset (fun hturn => .inr (Nat.ne_of_gt (hseq hturn))) hy
    simpa [htick] using hother.2

/-- Over such a window from where the count is 0, the count is the number of those ticks. -/
theorem lat_eq_countP_of_waiting (h : s.FollowsSchedule choice) {i : Nat} {x : State} (hx : s.runWith choice i = .next x)
    (hlat : x.env.lat = 0) (k : Nat)
    (hwait : ∀ j z, i ≤ j → j < i + k → s.runWith choice j = .next z → z.enabled = true ∧
      (z.offer (choice j)).nextTurn ≠ .reset ∧ ((z.offer (choice j)).nextTurn = .seq → 0 < z.env.preempt))
    {y : State} (hy : s.runWith choice (i + k) = .next y) :
    y.env.lat = (List.range' i k).countP (s.unpreemptedTick choice) := by
  induction k generalizing y with
  | zero =>
    obtain rfl : x = y := by simpa using hx.symm.trans hy
    simpa using hlat
  | succ k ih =>
    obtain ⟨z, hz⟩ := h.reaches (i + k)
    have hcount := ih (fun j w hij hjk => hwait j w hij (by omega)) hz
    obtain ⟨hon, hreset, hseq⟩ := hwait (i + k) z (by omega) (by omega) hz
    rw [lat_step_of_waiting hz hy hon hreset hseq, hcount, List.range'_concat, List.countP_append, one_mul,
      List.countP_singleton]
    cases s.unpreemptedTick choice (i + k) <;> rfl

end

/-- Settles O50: the four kinds of turn, then a window's ticks are its count, which the schedule bounds. -/
theorem scheduleKeepsItsBound : Obligations.ScheduleKeepsItsBound := by
  refine ⟨fun s hturn => ?tick, fun s s' => step_of_seq_turn_time, fun s s' => step_of_other_turn_time,
    fun choice s h => ⟨fun i k x hx hlat hwait => ?window, h.time_unbounded⟩⟩
  case tick => exact ⟨_, step_of_tick_turn hturn, rfl⟩
  case window =>
    obtain ⟨y, hy⟩ := h.reaches (i + k)
    rw [← lat_eq_countP_of_waiting h hx hlat k hwait hy, ← runWith_params (Nat.le_add_right i k) hx hy]
    exact h.onTime _ y hy

end Sys2Proof.Machine

/-! The code words (R110 to R132, R140): the decoder and the encoder are inverse to each other, and the words that decode
are those of the opcode map. -/

namespace Sys2Proof

/-! Decoding an encoded instruction. -/

/-- The decoder reads back the opcode and the argument a word was put together from. -/
theorem decode_uopWord_target {opc : BitVec 6} {mk : UAddr → Instr}
    (hrow : ∀ w, opcField w = opc → decodeUop w = decodeUT (argField w) mk) (tgt : UAddr) :
    decode (uopWord opc tgt) = .ok (mk tgt) := by
  rw [uopWord, decode, hrow _ (opcField_append opc tgt), argField_append, decodeUT]

theorem decode_uopWord_immediate (n : BitVec 8) : decode (uopWord 0x11#6 (0#2 ++ n)) = .ok (.ldbits n) := by
  rw [uopWord, decode, decodeUop, opcField_append, argField_append]
  exact decodeUI_zero_append n .ldbits

theorem decode_encode_waitf {flg : BitVec 2} : (Instr.waitf flg).wellFormed = true →
    decode (encode (.waitf flg)) = .ok (.waitf flg) := by
  revert flg; decide

theorem decode_encode_srcld {ch : BitVec 2} : (Instr.srcld ch).wellFormed = true →
    decode (encode (.srcld ch)) = .ok (.srcld ch) := by
  revert ch; decide

/-- Settles O5: a fixed word each for the instructions without an operand, and the formats' fields for the others. -/
theorem decodeOfEncode : Obligations.DecodeOfEncode := by
  intro i hwf
  cases i with
  | nop | tcfg | trst | ten | tdis | masks | pwh | pwl | cli | rsi => rfl
  | wsel | shl | ret => rfl
  | srcpd | srcsd | srcadv | srchas | dlrst | dlchk | pgwait | pgmark | endok | endab => rfl
  | waitf flg => exact decode_encode_waitf hwf
  | srcld ch => exact decode_encode_srcld hwf
  | ldbits n => exact decode_uopWord_immediate n
  | bnz tgt | call tgt | bf tgt | jmp tgt | bnt tgt =>
    exact decode_uopWord_target (fun w hopc => by rw [decodeUop, hopc]; rfl) tgt
  | initCmd | showCmd => rfl
  | clearCmd count => exact decodeHcmd_clearWord count

/-! Encoding a decoded word. -/

/-- The word is the one word of a well-formed instruction. -/
def IsWordOf (w : Word16) (i : Instr) : Prop := i.wellFormed = true ∧ encode i = .uop w

/-- A word is its opcode and its argument. -/
theorem uopWord_eq_of_fields {w : Word16} {o : Nat} {arg : BitVec 10} (hopc : (opcField w).toNat = o)
    (harg : argField w = arg) : uopWord (BitVec.ofNat 6 o) arg = .uop w := by
  rw [uopWord, ← hopc, ← harg, BitVec.ofNat_toNat, BitVec.setWidth_eq, append_fields]

/-- An argument whose high bits are 0 is its low field. -/
theorem append_low_of_high_eq_zero {arg : BitVec 10} {n m : Nat} (hnm : m + n = 10) (hhigh : arg.extractLsb' n m = 0#m) :
    arg = (0#m ++ arg.extractLsb' 0 n).cast hnm := by
  have hlt : arg.toNat < 2 ^ n := toNat_lt_of_high_eq_zero (by omega) hhigh
  apply BitVec.eq_of_toNat_eq
  rw [BitVec.toNat_cast, append_toNat, BitVec.toNat_zero, BitVec.extractLsb'_toNat, Nat.shiftRight_zero,
    Nat.mod_eq_of_lt hlt, Nat.zero_mul, Nat.zero_add]

section
variable {w : Word16} {o : Nat} {j : Instr}

theorem isWordOf_of_decodeU0 {i : Instr} (hwf : i.wellFormed = true) (henc : encode i = uopWord (BitVec.ofNat 6 o) 0#10)
    (hopc : (opcField w).toNat = o) (h : decodeU0 (argField w) i = .ok j) : IsWordOf w j := by
  unfold decodeU0 at h
  split at h
  case isTrue harg =>
    cases h
    exact ⟨hwf, henc.trans (uopWord_eq_of_fields hopc harg)⟩
  case isFalse => cases h

theorem isWordOf_of_decodeUF {mk : BitVec 2 → Instr} (hwf : ∀ f, f ≠ 3#2 → (mk f).wellFormed = true)
    (henc : ∀ f, encode (mk f) = uopWord (BitVec.ofNat 6 o) (0#8 ++ f)) (hopc : (opcField w).toNat = o)
    (h : decodeUF (argField w) mk = .ok j) : IsWordOf w j := by
  unfold decodeUF at h
  split at h
  case isTrue hhigh =>
    split at h
    case isTrue => cases h
    case isFalse hflg =>
      cases h
      exact ⟨hwf _ hflg, (henc _).trans (uopWord_eq_of_fields hopc (append_low_of_high_eq_zero rfl hhigh))⟩
  case isFalse => cases h

/-- Format UC accepts the arguments that format UF does (R113, R114). -/
theorem decodeUF_of_decodeUC {arg : BitVec 10} {mk : BitVec 2 → Instr} (h : decodeUC arg mk = .ok j) :
    decodeUF arg mk = .ok j := by
  unfold decodeUC at h
  unfold decodeUF
  split at h
  case isTrue hhigh =>
    rw [if_pos hhigh]
    split at h
    case isTrue => cases h
    case isFalse hch => rwa [if_neg hch]
  case isFalse => cases h

theorem isWordOf_of_decodeUI {mk : BitVec 8 → Instr} (hwf : ∀ n, (mk n).wellFormed = true)
    (henc : ∀ n, encode (mk n) = uopWord (BitVec.ofNat 6 o) (0#2 ++ n)) (hopc : (opcField w).toNat = o)
    (h : decodeUI (argField w) mk = .ok j) : IsWordOf w j := by
  unfold decodeUI at h
  split at h
  case isTrue hhigh =>
    cases h
    exact ⟨hwf _, (henc _).trans (uopWord_eq_of_fields hopc (append_low_of_high_eq_zero rfl hhigh))⟩
  case isFalse => cases h

theorem isWordOf_of_decodeUT {mk : UAddr → Instr} (hwf : ∀ tgt, (mk tgt).wellFormed = true)
    (henc : ∀ tgt, encode (mk tgt) = uopWord (BitVec.ofNat 6 o) tgt) (hopc : (opcField w).toNat = o)
    (h : decodeUT (argField w) mk = .ok j) : IsWordOf w j := by
  cases h
  exact ⟨hwf _, (henc _).trans (uopWord_eq_of_fields hopc rfl)⟩

end

/-- Each row of the opcode map reads its format. -/
theorem isWordOf_of_decodeUop {w : Word16} {i : Instr} (h : decodeUop w = .ok i) : IsWordOf w i := by
  unfold decodeUop at h
  split at h
  case h_6 hopc => exact isWordOf_of_decodeUF (mk := .waitf) (fun _ => bne_iff_ne.mpr) (fun _ => rfl) hopc h
  case h_20 hopc =>
    exact isWordOf_of_decodeUF (mk := .srcld) (fun _ => bne_iff_ne.mpr) (fun _ => rfl) hopc (decodeUF_of_decodeUC h)
  case h_13 hopc => exact isWordOf_of_decodeUI (fun _ => rfl) (fun _ => rfl) hopc h
  case h_15 hopc | h_16 hopc | h_23 hopc | h_24 hopc | h_25 hopc =>
    exact isWordOf_of_decodeUT (fun _ => rfl) (fun _ => rfl) hopc h
  case h_32 => cases h
  all_goals
    rename_i hopc
    exact isWordOf_of_decodeU0 rfl rfl hopc h

/-- A command word is the encoding of its command. -/
theorem encode_of_commandWord {w : Word32} {i : Instr} (h : CommandWord w i) :
    i.wellFormed = true ∧ encode i = .hcmd w := by
  cases i with
  | initCmd | showCmd => cases h; exact ⟨rfl, rfl⟩
  | clearCmd count =>
    have hw : w = count ++ 0#4 ++ 0x3#4 := BitVec.eq_of_toNat_eq (h.trans (hcmd_toNat count 0x3#4).symm)
    exact ⟨rfl, congrArg CodeWord.hcmd hw.symm⟩
  | _ => exact h.elim

/-- Settles O6: for micro-ops by format, for commands by the command's word. -/
theorem encodeOfDecode : Obligations.EncodeOfDecode := by
  intro c i h
  cases c with
  | uop w => exact isWordOf_of_decodeUop h
  | hcmd w => exact encode_of_commandWord (commandWord_of_decodeHcmd h)

/-- Settles O7: each word is evaluated. -/
theorem wordsOfTheSpecDecode : Obligations.WordsOfTheSpecDecode :=
  ⟨rfl, rfl, rfl, rfl, rfl, rfl, rfl, rfl, rfl, rfl, rfl, rfl, rfl, rfl, rfl, rfl, rfl⟩

/-! The words that decode. -/

/-- A word from its two fields as numbers. -/
theorem eq_append_of_fields {w : Word16} {o a : Nat} (ho : w.toNat / 1024 = o) (ha : w.toNat % 1024 = a) :
    w = BitVec.ofNat 6 o ++ BitVec.ofNat 10 a := by
  rw [← ho, ← ha, ← opcField_toNat, ← argField_toNat, BitVec.ofNat_toNat, BitVec.ofNat_toNat, BitVec.setWidth_eq,
    BitVec.setWidth_eq, append_fields]

/-- The opcodes of format U0, with the argument 0. -/
theorem decodeUop_isOk_of_plain : ∀ o ∈ [0x00, 0x01, 0x02, 0x03, 0x04, 0x06, 0x07, 0x08, 0x09, 0x0A, 0x10, 0x12, 0x15, 0x20,
    0x21, 0x23, 0x24, 0x28, 0x29, 0x2A, 0x2B, 0x2C, 0x2D], (decodeUop (BitVec.ofNat 6 o ++ 0#10)).isOk = true := by decide

/-- The opcodes of formats UF and UC, with a selector that is not 3. -/
theorem decodeUop_isOk_of_selector : ∀ o ∈ [0x05, 0x22], ∀ a < 3,
    (decodeUop (BitVec.ofNat 6 o ++ BitVec.ofNat 10 a)).isOk = true := by decide

theorem decodeUop_isOk_of_immediate {a : Nat} (ha : a < 256) :
    (decodeUop (0x11#6 ++ BitVec.ofNat 10 a)).isOk = true := by
  have hword : BitVec.ofNat 10 a = 0#2 ++ BitVec.ofNat 8 a := by
    apply BitVec.eq_of_toNat_eq
    simp only [append_toNat, BitVec.toNat_ofNat]
    omega
  have hdecode : decodeUop (0x11#6 ++ (0#2 ++ BitVec.ofNat 8 a)) = .ok (.ldbits (BitVec.ofNat 8 a)) :=
    decode_uopWord_immediate _
  rw [hword, hdecode]
  rfl

/-- The opcodes of format UT, with any argument. -/
theorem decodeUop_isOk_of_target {o : Nat} (ho : o ∈ [0x13, 0x14, 0x25, 0x26, 0x27]) (arg : BitVec 10) :
    (decodeUop (BitVec.ofNat 6 o ++ arg)).isOk = true := by
  rw [decodeUop, opcField_append]
  fin_cases ho <;> rfl

theorem decodeUop_isOk_of_mappedWord {w : Word16} (h : MappedWord w) : (decodeUop w).isOk = true := by
  obtain ⟨hopc, harg⟩ | ⟨hopc, harg⟩ | ⟨hopc, harg⟩ | hopc := h
  · rw [eq_append_of_fields rfl harg]
    exact decodeUop_isOk_of_plain _ hopc
  · rw [eq_append_of_fields (w := w) rfl rfl]
    exact decodeUop_isOk_of_selector _ hopc _ harg
  · rw [eq_append_of_fields hopc rfl]
    exact decodeUop_isOk_of_immediate harg
  · rw [eq_append_of_fields (w := w) rfl rfl]
    exact decodeUop_isOk_of_target hopc _

/-- Settles O8: a mapped word decodes, by the four kinds of format; that no other does is the decoder's own inversion. -/
theorem exactlyTheMappedWordsDecode : Obligations.ExactlyTheMappedWordsDecode := by
  refine fun w => ⟨fun ⟨i, hi⟩ => mappedWord_of_decodeUop hi, fun hmapped => ?_⟩
  have hok := decodeUop_isOk_of_mappedWord hmapped
  cases hd : decodeUop w with
  | ok i => exact ⟨i, rfl⟩
  | error e =>
    rw [hd] at hok
    cases hok

end Sys2Proof

/-! The host's register accesses (R50, R86, R324) and the assembler's pseudo-instructions (R146). -/

namespace Sys2Proof

/-! The packed registers as numbers: each field at its place. -/

/-- A flag in the lowest bit of a word. -/
theorem append_ofBool_toNat {n : Nat} (hi : BitVec n) (b : Bool) :
    (hi ++ BitVec.ofBool b).toNat = 2 * hi.toNat + b.toNat := by
  rw [append_toNat, BitVec.toNat_ofBool]
  omega

/-- BLK_CFG is NBITS with INT_TOLERANT above it. -/
theorem Params.cfgWord_toNat (p : Params) : p.cfgWord.toNat = (8 + p.xtra) % 256 + 256 * p.intTolerant.toNat := by
  rw [Params.cfgWord, append_toNat, append_ofBool_toNat, BitVec.toNat_ofNat, BitVec.toNat_ofNat, Params.nbits]
  omega

theorem Params.pinMask_toNat {p : Params} (hpin : p.pin < p.portW) (hport : p.portW ≤ 32) :
    p.pinMask.toNat = 2 ^ p.pin := by
  rw [Params.pinMask_eq_twoPow hpin hport, BitVec.toNat_twoPow_of_lt (by omega)]

/-- PORT_OUT keeps the low PORT_W bits of the written word (R50). -/
theorem Params.portBits_toNat (p : Params) (v : Word32) : (p.portBits v).toNat = v.toNat % 2 ^ p.portW := by
  rw [Params.portBits, BitVec.toNat_ofNat, Nat.mod_eq_of_lt (lt_of_le_of_lt (Nat.mod_le _ _) v.isLt)]

namespace Machine

theorem Timer.ctrlWord_toNat (tm : Timer) : tm.ctrlWord.toNat = 2 + tm.en.toNat := by
  rw [Timer.ctrlWord, append_ofBool_toNat]
  rfl

theorem Timer.statusWord_toNat (tm : Timer) : tm.statusWord.toNat = tm.ovf.toNat + 2 * tm.ma.toNat + 4 * tm.mb.toNat := by
  rw [Timer.statusWord, append_ofBool_toNat, append_ofBool_toNat, append_ofBool_toNat, BitVec.toNat_ofNat]
  omega

theorem Status.busy_eq (st : Status) : st.busy = decide (st.seqState = .run) := by
  cases h : st.seqState <;> simp [Status.busy, h]

theorem Status.faulted_eq (st : Status) : st.faulted = decide (st.seqState = .fault) := by
  cases h : st.seqState <;> simp [Status.faulted, h]

/-- BLK_STATUS: BUSY, CFG_OK, DONE and FAULTED from bit 0 up, then CAUSE. -/
theorem Status.word_toNat (st : Status) : st.word.toNat = (decide (st.seqState = .run)).toNat + 2 * st.cfgOk.toNat +
    4 * st.done.toNat + 8 * (decide (st.seqState = .fault)).toNat + 16 * st.cause.code.toNat := by
  rw [Status.word, append_ofBool_toNat, append_ofBool_toNat, append_ofBool_toNat, append_ofBool_toNat, append_toNat,
    BitVec.toNat_ofNat, Status.busy_eq, Status.faulted_eq]
  omega

/-- Settles O42: the index selects the register, and a packed register is the sum of its fields. -/
theorem registerReads : Obligations.RegisterReads := by
  intro s
  refine ⟨fun idx => rfl, s.timer.ctrlWord_toNat, BitVec.toNat_ofNat _ _, BitVec.toNat_ofNat _ _, BitVec.toNat_ofNat _ _,
    BitVec.toNat_ofNat _ _, s.timer.statusWord_toNat, rfl, Params.pinMask_toNat, s.status.word_toNat, rfl,
    s.params.cfgWord_toNat, BitVec.toNat_ofNat _ _, BitVec.toNat_ofNat _ _, BitVec.toNat_ofNat _ _, rfl, rfl⟩

/-- A flag is cleared by a 1 in its bit (R50). -/
theorem Timer.clearFlags_eq (tm : Timer) (v : Word32) : tm.clearFlags v = { tm with
    ovf := if v.getLsbD 0 then false else tm.ovf
    ma := if v.getLsbD 1 then false else tm.ma
    mb := if v.getLsbD 2 then false else tm.mb } := by
  have cleared (f b : Bool) : (f && !b) = if b then false else f := by cases b <;> simp
  rw [Timer.clearFlags, cleared, cleared, cleared]

/-- A write of any register but HCMD is the register's own (R50). -/
theorem hostAccess_write {s : State} {idx : BitVec 4} (h : idx ≠ hcmdIndex) (v : Word32) :
    s.hostAccess (.write .word idx v) = .next (s.regWrite idx v) := if_neg h

/-- The read-only and the reserved registers ignore a write. -/
theorem regWrite_of_readOnly (s : State) (v : Word32) :
    ∀ idx ∈ [0x1#4, 0x7#4, 0x8#4, 0xA#4, 0xB#4, 0xC#4, 0xD#4, 0xE#4, 0xF#4], idx ≠ hcmdIndex ∧ s.regWrite idx v = s := by
  intro idx hidx
  fin_cases hidx <;> exact ⟨by decide, rfl⟩

/-- Settles O43: the index selects the register; the flags and the port have their own lemmas. -/
theorem registerWrites : Obligations.RegisterWrites := by
  refine fun s v => ⟨rfl, rfl, rfl, rfl, ?status, ⟨_, s.params.portBits_toNat v, rfl⟩, fun idx hidx => ?readOnly⟩
  case status =>
    rw [← Timer.clearFlags_eq]
    rfl
  case readOnly =>
    obtain ⟨hne, hkeep⟩ := regWrite_of_readOnly s v idx hidx
    rw [hostAccess_write hne, hkeep]

/-- Settles O44: only the width of the access counts. -/
theorem narrowHostAccessIsRefused : Obligations.NarrowHostAccessIsRefused := by
  intro s w idx v hw
  cases w with
  | byte | half => exact ⟨rfl, rfl⟩
  | word => exact absurd rfl hw

/-- Settles O41: the commands check FAULT first, and so does the dispatch of HCMD. -/
theorem commandsAreIgnoredWhileFaulted : Obligations.CommandsAreIgnoredWhileFaulted := by
  intro s hfault
  exact ⟨exec_initCmd_of_fault hfault, exec_showCmd_of_fault hfault, exec_clearCmd_of_fault hfault,
    fun w => (s.hostAccess_write_hcmd w).trans (State.hostCommand_of_fault hfault w)⟩

/-! The assembler. -/

/-- Settles O60: the tables list each pseudo-instruction beside the micro-op it stands for; B's row is JMP's. -/
theorem pseudoInstructionsExpand : Obligations.PseudoInstructionsExpand :=
  fun _ _ _ => ⟨rfl, rfl, rfl, rfl, fun _ => rfl⟩

end Machine

end Sys2Proof

/-! The reference micro-ROM (R290, R408): what the listing has done by each of its words, as a set of facts; what each
micro-op does to such a set; and one check over the 42 words that every transfer finds the facts of the word it leads to. -/

namespace Sys2Proof.Machine

/-! The facts. -/

/-- Which of the facts of State.AtListing are asked for. -/
structure Facts where
  masks : Bool
  byte : Bool
  saved : Bool
  deadline : Bool
  condition : Bool
  link : Bool
  count : Bool
  low : Bool
  high : Bool
  masked : Bool
  configured : Bool
  running : Bool
  stopped : Bool

/-- The facts of word `a`, as State.AtListing has them. -/
def Facts.atWord (a : Nat) : Facts where
  masks := decide (2 ≤ a)
  byte := decide (5 ≤ a)
  saved := decide (6 ≤ a)
  deadline := decide (0x0A ≤ a)
  condition := decide (a = 0x0B ∨ a = 0x17)
  link := decide (0x21 ≤ a)
  count := decide (0x22 ≤ a)
  low := decide (3 ≤ a ∧ a ≠ 0x25 ∧ a ≠ 0x26)
  high := decide (a = 0x25 ∨ a = 0x26)
  masked := decide ((6 ≤ a ∧ a ≤ 0x14) ∨ (0x16 ≤ a ∧ a ≤ 0x1A) ∨ a = 0x1D ∨ a = 0x1E ∨ 0x21 ≤ a)
  configured := decide (7 ≤ a)
  running := decide ((9 ≤ a ∧ a ≤ 0x19) ∨ a = 0x1D ∨ 0x21 ≤ a)
  stopped := decide ((0x1A ≤ a ∧ a ≤ 0x1C) ∨ (0x1E ≤ a ∧ a ≤ 0x20))

/-- Whatever `n` asks for, `m` asks for too. -/
def Facts.within (n m : Facts) : Bool :=
  (!n.masks || m.masks) && (!n.byte || m.byte) && (!n.saved || m.saved) && (!n.deadline || m.deadline) &&
    (!n.condition || m.condition) && (!n.link || m.link) && (!n.count || m.count) && (!n.low || m.low) &&
    (!n.high || m.high) && (!n.masked || m.masked) && (!n.configured || m.configured) && (!n.running || m.running) &&
    (!n.stopped || m.stopped)

/-- The words after the listing's three calls. -/
def returnAddresses : List UAddr := [0x00E#10, 0x010#10, 0x012#10]

/-- The state has the facts that `n` asks for. -/
structure State.Meets (s : State) (n : Facts) : Prop where
  masks : n.masks = true → s.regs.hi.isSome ∧ ∃ lo, s.regs.lo = some lo ∧ lo.getLsbD s.params.pin = false
  byte : n.byte = true → s.regs.b.isSome
  saved : n.saved = true → s.regs.sie.isSome
  deadline : n.deadline = true → s.regs.d.isSome
  condition : n.condition = true → s.regs.f.isSome
  link : n.link = true → ∃ lr, s.regs.lr = some lr ∧ lr ∈ returnAddresses
  count : n.count = true → s.regs.i.isSome
  low : n.low = true → s.regs.lo = some s.port
  high : n.high = true → s.regs.hi = some s.port
  masked : n.masked = true → s.ie = false
  configured : n.configured = true → s.timer.per = s.params.cntBits s.params.perCfg ∧
    s.timer.cmpa = s.params.cntBits s.params.t1 ∧ s.timer.cmpb = s.params.cntBits (s.params.t1 + s.params.t2)
  running : n.running = true → s.timer.en = true
  stopped : n.stopped = true → s.timer.en = false

theorem State.Meets.mono {s : State} {n m : Facts} (h : s.Meets m) (hnm : n.within m = true) : s.Meets n := by
  have implies {a b : Bool} : (!a || b) = true → a = true → b = true := by cases a <;> simp
  simp only [Facts.within, Bool.and_eq_true] at hnm
  obtain ⟨⟨⟨⟨⟨⟨⟨⟨⟨⟨⟨⟨hmasks, hbyte⟩, hsaved⟩, hdeadline⟩, hcondition⟩, hlink⟩, hcount⟩, hlow⟩, hhigh⟩, hmasked⟩,
    hconfigured⟩, hrunning⟩, hstopped⟩ := hnm
  exact
    { masks := h.masks ∘ implies hmasks, byte := h.byte ∘ implies hbyte, saved := h.saved ∘ implies hsaved
      deadline := h.deadline ∘ implies hdeadline, condition := h.condition ∘ implies hcondition
      link := h.link ∘ implies hlink, count := h.count ∘ implies hcount, low := h.low ∘ implies hlow
      high := h.high ∘ implies hhigh, masked := h.masked ∘ implies hmasked
      configured := h.configured ∘ implies hconfigured, running := h.running ∘ implies hrunning
      stopped := h.stopped ∘ implies hstopped }

/-- The invariant at a word is its facts. -/
theorem atListing_iff (s : State) : s.AtListing ↔ s.upc.toNat < 42 ∧ s.Meets (.atWord s.upc.toNat) := by
  have links : (s.regs.lr = some 0x00E#10 ∨ s.regs.lr = some 0x010#10 ∨ s.regs.lr = some 0x012#10) ↔
      ∃ lr, s.regs.lr = some lr ∧ lr ∈ returnAddresses := by
    simp [returnAddresses, and_or_left, exists_or]
  constructor
  · intro h
    refine ⟨Nat.lt_succ_of_le h.upc_listed, ?_⟩
    constructor <;> intro ha <;> have ha := of_decide_eq_true ha
    · exact h.masks ha
    · exact h.byte ha
    · exact h.saved ha
    · exact h.deadline ha
    · exact h.condition ha
    · exact links.mp (h.link ha)
    · exact h.count ha
    · obtain ⟨hfrom, hpwh, hwsel⟩ := ha
      exact h.line_low hfrom hpwh hwsel
    · exact h.line_high ha
    · exact h.masked ha
    · exact h.configured ha
    · exact h.running ha
    · exact h.stopped ha
  · rintro ⟨hlt, h⟩
    exact
      { upc_listed := Nat.le_of_lt_succ hlt
        masks := fun ha => h.masks (decide_eq_true ha)
        byte := fun ha => h.byte (decide_eq_true ha)
        saved := fun ha => h.saved (decide_eq_true ha)
        deadline := fun ha => h.deadline (decide_eq_true ha)
        condition := fun ha => h.condition (decide_eq_true ha)
        link := fun ha => links.mpr (h.link (decide_eq_true ha))
        count := fun ha => h.count (decide_eq_true ha)
        line_low := fun hfrom hpwh hwsel => h.low (decide_eq_true ⟨hfrom, hpwh, hwsel⟩)
        line_high := fun ha => h.high (decide_eq_true ha)
        masked := fun ha => h.masked (decide_eq_true ha)
        configured := fun ha => h.configured (decide_eq_true ha)
        running := fun ha => h.running (decide_eq_true ha)
        stopped := fun ha => h.stopped (decide_eq_true ha) }

/-! What a micro-op does to the facts. -/

/-- The micro-op raises no fault where the facts hold: what it reads is written, its selector is legal, and it is no
command. -/
def Facts.ready (n : Facts) : Instr → Bool
  | .pwh | .pwl => n.masks
  | .rsi => n.saved
  | .wsel => n.byte
  | .shl => n.byte && n.count
  | .bnz _ => n.count
  | .ret => n.link
  | .bf _ => n.condition
  | .dlchk => n.deadline
  | .waitf flg => flg != 3#2
  | .srcld ch => ch != 3#2
  | .initCmd | .showCmd | .clearCmd _ => false
  | _ => true

/-- The facts after the micro-op at `u`. -/
def Facts.after (n : Facts) (u : UAddr) : Instr → Facts
  | .tcfg => { n with configured := true }
  | .ten => { n with running := true, stopped := false }
  | .tdis => { n with running := false, stopped := true }
  | .masks => { n with masks := true, low := false, high := false }
  | .pwh => { n with low := false, high := true }
  | .pwl => { n with low := true, high := false }
  | .cli => { n with saved := true, masked := true }
  | .rsi => { n with masked := false }
  | .ldbits _ => { n with count := true }
  | .call _ => { n with link := decide (u + 1 ∈ returnAddresses) }
  | .srcld _ | .srcadv => { n with byte := true }
  | .srchas => { n with condition := true }
  | .dlrst => { n with deadline := true }
  | .dlchk => { n with deadline := true, condition := true }
  | _ => n

/-- Where control goes from the micro-op at `u`; nowhere where the frame ends. -/
def successors (u : UAddr) : Instr → List UAddr
  | .bnz tgt | .bf tgt | .bnt tgt => [tgt, u + 1]
  | .jmp tgt | .call tgt => [tgt]
  | .ret => returnAddresses
  | .endok | .endab => []
  | _ => [u + 1]

/-- From `s` to `s'` the micro-op `i` goes on with the facts it gives, or polls, or ends the frame. -/
inductive Proceeds (i : Instr) (n : Facts) (s : State) : State → Prop
  | poll : Proceeds i n s s
  | on {s' : State} (status : s'.status = s.status) (upc : s'.upc ∈ successors s.upc i)
      (facts : s'.Meets (n.after s.upc i)) : Proceeds i n s s'
  | endok (h : i = .endok) : Proceeds i n s (s.endFrame true .none)
  | endab (h : i = .endab) : Proceeds i n s (s.endFrame false .deadlineAbort).advance

/-- A read of a register that is written. -/
theorem withWritten_of_isSome {P : State → Prop} {s : State} {α : Type} {r : Option α} {k : α → Result}
    (hr : r.isSome = true) (hk : ∀ v, r = some v → Answers P (k v)) : Answers P (s.withWritten r k) := by
  obtain ⟨v, rfl⟩ := Option.isSome_iff_exists.mp hr
  exact hk v rfl

theorem flag_of_ne_three (tm : Timer) {flg : BitVec 2} (h : flg ≠ 3#2) : ∃ v, tm.flag flg = some v := by
  obtain rfl | rfl | rfl | rfl : flg = 0#2 ∨ flg = 1#2 ∨ flg = 2#2 ∨ flg = 3#2 := by revert flg; decide
  · exact ⟨_, flag_ovf tm⟩
  · exact ⟨_, flag_ma tm⟩
  · exact ⟨_, flag_mb tm⟩
  · exact absurd rfl h

/-- MASKS leaves bit PIN of LO 0 (R170). -/
theorem maskLow_pin {p : Params} (hwf : p.wf = true) (v : PortWord) : (v &&& ~~~p.pinMask).getLsbD p.pin = false := by
  obtain ⟨_, ⟨_, hport⟩, hpin, _⟩ := (Params.wf_iff p).mp hwf
  rw [BitVec.getLsbD_and, BitVec.getLsbD_not, Params.pinMask_getLsbD hpin hport]
  simp

section
variable {s : State} {n : Facts}

/-- A wait polls or goes on to the next word. -/
theorem waitUntil_proceeds {i : Instr} {c : Bool} (hupc : s.upc + 1 ∈ successors s.upc i) (h : s.Meets (n.after s.upc i)) :
    Answers (Proceeds i n s) (s.waitUntil c) := by
  cases c with
  | false => exact .next .poll
  | true => exact .next (.on rfl hupc { h with })

/-- A branch goes to its target or to the next word. -/
theorem branch_proceeds {i : Instr} {c : Bool} {tgt : UAddr} (hupc : successors s.upc i = [tgt, s.upc + 1])
    (h : s.Meets (n.after s.upc i)) : Answers (Proceeds i n s) (.next (s.branch c tgt)) := by
  refine .next (.on ?_ ?_ ?_) <;> cases c
  · rfl
  · rfl
  · simp [hupc]
  · simp [hupc]
  · exact { h with }
  · exact { h with }

/-- Every micro-op proceeds from the facts it is ready for. -/
theorem exec_proceeds {i : Instr} (hwf : s.params.wf = true) (h : s.Meets n) (hready : n.ready i = true) :
    Answers (Proceeds i n s) (exec i s) := by
  have next {i : Instr} (hi : successors s.upc i = [s.upc + 1]) : s.upc + 1 ∈ successors s.upc i := by simp [hi]
  cases i with
  | initCmd | showCmd | clearCmd => cases hready
  | nop | trst | srcpd | srcsd | pgmark => exact .next (.on rfl (next rfl) { h with })
  | tcfg => exact .next (.on rfl (next rfl) { h with configured := fun _ => ⟨rfl, rfl, rfl⟩ })
  | ten => exact .next (.on rfl (next rfl) { h with running := fun _ => rfl, stopped := nofun })
  | tdis => exact .next (.on rfl (next rfl) { h with running := nofun, stopped := fun _ => rfl })
  | masks =>
    exact .next (.on rfl (next rfl)
      { h with masks := fun _ => ⟨rfl, _, rfl, maskLow_pin hwf s.port⟩, low := nofun, high := nofun })
  | pwh =>
    refine withWritten_of_isSome (h.masks hready).1 fun v hv => ?_
    exact .next (.on rfl (next rfl) { h with low := nofun, high := fun _ => hv })
  | pwl =>
    obtain ⟨_, lo, hlo, _⟩ := h.masks hready
    refine withWritten_of_isSome (by simp [hlo]) fun v hv => ?_
    exact .next (.on rfl (next rfl) { h with low := fun _ => hv, high := nofun })
  | cli => exact .next (.on rfl (next rfl) { h with saved := fun _ => rfl, masked := fun _ => rfl })
  | rsi =>
    exact withWritten_of_isSome (h.saved hready) fun v _ => .next (.on rfl (next rfl) { h with masked := nofun })
  | waitf flg =>
    obtain ⟨v, hv⟩ := flag_of_ne_three s.timer (bne_iff_ne.mp hready)
    rw [exec_waitf, withFlag_of_eq_some hv]
    exact waitUntil_proceeds (next rfl) h
  | wsel => exact withWritten_of_isSome (h.byte hready) fun _ _ => waitUntil_proceeds (next rfl) h
  | pgwait => exact waitUntil_proceeds (next rfl) h
  | ldbits => exact .next (.on rfl (next rfl) { h with count := fun _ => rfl })
  | shl =>
    obtain ⟨hbyte, hcount⟩ := (Bool.and_eq_true _ _).mp hready
    refine withWritten_of_isSome (h.byte hbyte) fun _ _ => withWritten_of_isSome (h.count hcount) fun _ _ => ?_
    exact .next (.on rfl (next rfl) { h with byte := fun _ => rfl, count := fun _ => rfl })
  | bnz => exact withWritten_of_isSome (h.count hready) fun _ _ => branch_proceeds rfl h
  | bf => exact withWritten_of_isSome (h.condition hready) fun _ _ => branch_proceeds rfl h
  | bnt => exact branch_proceeds rfl h
  | jmp => exact .next (.on rfl (List.mem_singleton.mpr rfl) { h with })
  | call =>
    exact .next (.on rfl (List.mem_singleton.mpr rfl) { h with link := fun hret => ⟨_, rfl, of_decide_eq_true hret⟩ })
  | ret =>
    obtain ⟨lr, hlr, hret⟩ := h.link hready
    rw [exec_ret, withWritten_of_eq_some hlr]
    exact .next (.on rfl hret { h with })
  | srcld ch =>
    obtain ⟨v, src, heq⟩ := exec_srcld_form s ch
    rw [heq, withChannel_of_ne (bne_iff_ne.mp hready)]
    exact .next (.on rfl (next rfl) { h with byte := fun _ => rfl })
  | srcadv =>
    obtain ⟨v, src, z, heq⟩ := exec_srcadv_form s
    exact heq ▸ .next (.on rfl (next rfl) { h with byte := fun _ => rfl })
  | srchas =>
    obtain ⟨v, src, heq⟩ := exec_srchas_form s
    exact heq ▸ .next (.on rfl (next rfl) { h with condition := fun _ => rfl })
  | dlrst => exact .next (.on rfl (next rfl) { h with deadline := fun _ => rfl })
  | dlchk =>
    exact withWritten_of_isSome (h.deadline hready) fun _ _ =>
      .next (.on rfl (next rfl) { h with deadline := fun _ => rfl, condition := fun _ => rfl })
  | endok => exact .next (.endok rfl)
  | endab => exact .next (.endab rfl)

end

/-! The listing. -/

/-- The micro-ops of the listing of R290, in order, with `n` for NBITS. -/
def listing (n : BitVec 8) : List Instr :=
  [.pgwait, .masks, .pwl, .srcpd, .srcld 0, .cli, .tcfg, .trst,
   .ten, .dlrst, .srchas, .bf 0x019, .srcsd, .call 0x021, .srcld 1, .call 0x021,
   .srcld 2, .call 0x021, .srcadv, .bnt 0x018, .rsi, .cli, .dlchk, .bf 0x01D,
   .jmp 0x00A, .tdis, .rsi, .pgmark, .endok, .tdis, .rsi, .pgmark,
   .endab, .ldbits n, .waitf 0, .trst, .pwh, .wsel, .pwl, .shl,
   .bnz 0x022, .ret]

/-- The micro-op of a word of the listing. -/
def listedAt (n : BitVec 8) (u : UAddr) : Instr := (listing n).getD u.toNat .nop

/-- The words of the reference ROM decode to the listing (R290). -/
theorem decodeUop_fetch_reference {n : BitVec 8} (hn : 8 ≤ n.toNat) {u : UAddr} (hu : u.toNat < 42) :
    decodeUop ((Rom.reference n.toNat).fetch u) = .ok (listedAt n u) := by
  have hlist : (List.range 42).map (fun a => (decodeUop (Rom.readAt (Rom.reference n.toNat) a)).toOption) =
      (listing n).map some := by
    have hpairs := congrArg (List.map Prod.snd) (referenceRomIsTheListing n hn).1
    rw [List.map_map] at hpairs
    exact hpairs
  have hword : (decodeUop ((Rom.reference n.toNat).fetch u)).toOption = some (listedAt n u) := by
    have hat := congrArg (·[u.toNat]?) hlist
    have hlen : u.toNat < (listing n).length := hu
    simp only [List.getElem?_map, List.getElem?_range hu, List.getElem?_eq_getElem hlen, Option.map_some] at hat
    rw [listedAt, List.getD_eq_getElem _ _ hlen]
    exact Option.some.inj hat
  cases hd : decodeUop ((Rom.reference n.toNat).fetch u) with
  | ok i =>
    rw [hd] at hword
    exact congrArg Except.ok (Option.some.inj hword)
  | error e =>
    rw [hd] at hword
    cases hword

/-- At word `u` the micro-op is ready and its transfers find the facts of the words they lead to. -/
def closedAt (n : BitVec 8) (u : UAddr) : Bool :=
  (Facts.atWord u.toNat).ready (listedAt n u) &&
    (successors u (listedAt n u)).all fun v =>
      decide (v.toNat < 42) && (Facts.atWord v.toNat).within ((Facts.atWord u.toNat).after u (listedAt n u))

/-- The check over the listing: no word depends on NBITS. -/
theorem listing_closed (n : BitVec 8) : ((List.range 42).all fun a => closedAt n (BitVec.ofNat 10 a)) = true := rfl

theorem closedAt_of_lt (n : BitVec 8) {u : UAddr} (hu : u.toNat < 42) : closedAt n u = true := by
  have hat := List.all_eq_true.mp (listing_closed n) u.toNat (List.mem_range.mpr hu)
  rwa [BitVec.ofNat_toNat, BitVec.setWidth_eq] at hat

theorem listedAt_ready (n : BitVec 8) {u : UAddr} (hu : u.toNat < 42) :
    (Facts.atWord u.toNat).ready (listedAt n u) = true := by
  have hclosed := closedAt_of_lt n hu
  rw [closedAt, Bool.and_eq_true] at hclosed
  exact hclosed.1

theorem atListing_of_successor (n : BitVec 8) {u : UAddr} (hu : u.toNat < 42) {s : State}
    (hupc : s.upc ∈ successors u (listedAt n u)) (h : s.Meets ((Facts.atWord u.toNat).after u (listedAt n u))) :
    s.AtListing := by
  have hclosed := closedAt_of_lt n hu
  rw [closedAt, Bool.and_eq_true] at hclosed
  have hword := List.all_eq_true.mp hclosed.2 s.upc hupc
  rw [Bool.and_eq_true, decide_eq_true_eq] at hword
  exact (atListing_iff s).mpr ⟨hword.1, h.mono hword.2⟩

/-! The invariant of a conforming system. -/

/-- Word 0x000 asks for nothing. -/
theorem atListing_of_upc_zero {s : State} (h : s.upc = 0#10) : s.AtListing := by
  refine (atListing_iff s).mpr ⟨by simp [h], ?_⟩
  rw [h]
  constructor <;> exact nofun

theorem State.resetOf_onListing {p : Params} (h : p.wf = true) : (State.resetOf p).OnListing where
  params_wf := h
  rom_reference := rfl
  cfgOk_valid := nofun
  run_configured := nofun
  no_fault := nofun
  preempt_run := nofun
  at_listing := nofun

/-- Settles O55: at reset no frame runs. -/
theorem conformingInstanceStartsOnListing : Obligations.ConformingInstanceStartsOnListing :=
  fun _ => State.resetOf_onListing

namespace State.OnListing

section
variable {s : State} (h : s.OnListing)
include h

theorem idle_of_halted (hrun : s.status.seqState ≠ .run) : s.status.seqState = .idle :=
  Machine.idle_of_halted hrun h.no_fault

theorem preempt_of_halted (hrun : s.status.seqState ≠ .run) : s.env.preempt = 0 := by
  by_contra hpre
  exact hrun (h.preempt_run (by omega)).1

/-- Between frames only the ROM, CFG_OK and the preemptions matter. -/
theorem of_idle {s' : State} (hparams : s'.params = s.params) (hrom : s'.rom = s.rom) (hidle : s'.status.seqState = .idle)
    (hcfg : s'.status.cfgOk = true → s.params.valid = true) (hpre : s'.env.preempt = 0) : s'.OnListing where
  params_wf := hparams ▸ h.params_wf
  rom_reference := by rw [hrom, hparams, h.rom_reference]
  cfgOk_valid := hparams ▸ hcfg
  run_configured hrun := by rw [hidle] at hrun; cases hrun
  no_fault hfault := by rw [hidle] at hfault; cases hfault
  preempt_run hpos := absurd hpre (Nat.ne_of_gt hpos)
  at_listing hrun := by rw [hidle] at hrun; cases hrun

/-- A frame starts at word 0x000 with CFG_OK. -/
theorem startFrame (hok : s.status.cfgOk = true) (hpre : s.env.preempt = 0) (src : SrcSel) : (s.startFrame src).OnListing :=
  { h with
    run_configured := fun _ => hok
    no_fault := nofun
    preempt_run := fun hpos => absurd hpre (Nat.ne_of_gt hpos)
    at_listing := fun _ => atListing_of_upc_zero rfl }

theorem setEnv {e : Env} (hpre : 0 < e.preempt → s.status.seqState = .run ∧ s.ie = true) : (s.setEnv e).OnListing :=
  { h with preempt_run := hpre, at_listing := fun hrun => { h.at_listing hrun with } }

theorem popTurn : s.popTurn.OnListing := h.setEnv h.preempt_run

theorem seqStart : s.seqStart.OnListing := h.setEnv h.preempt_run

/-- A tick moves none of the timer's settings. -/
theorem tick : s.tick.OnListing :=
  { h with
    preempt_run := fun hpos => h.preempt_run (Nat.lt_of_lt_of_le hpos (Nat.sub_le _ _))
    at_listing := fun hrun =>
      { h.at_listing hrun with
        configured := fun ha => by
          rw [State.tick_timer, tick_per, tick_cmpa, tick_cmpb]
          exact (h.at_listing hrun).configured ha
        running := fun ha => (tick_en _ _).trans ((h.at_listing hrun).running ha)
        stopped := fun ha => (tick_en _ _).trans ((h.at_listing hrun).stopped ha) } }

theorem laterReset : s.laterReset.OnListing :=
  { State.resetOf_onListing h.params_wf with
    rom_reference := h.rom_reference
    preempt_run := nofun
    at_listing := nofun }

/-- The host's commands start a frame or stay between frames. -/
theorem exec_command (hrun : s.status.seqState ≠ .run) {i : Instr} (hi : IsCommand i) :
    Answers State.OnListing (exec i s) := by
  have hidle := h.idle_of_halted hrun
  have hpre := h.preempt_of_halted hrun
  have refused : (s.setStatus { s.status with cause := .notConfigured }).OnListing :=
    h.of_idle rfl rfl hidle h.cfgOk_valid hpre
  cases i with
  | initCmd => exact .unlessFaulted h fun _ => h.of_idle rfl rfl hidle id hpre
  | showCmd => exact .unlessFaulted h fun _ => startIfConfigured_of (fun hok => h.startFrame hok hpre _) refused
  | clearCmd count =>
    refine .unlessFaulted h fun _ => startIfConfigured_of (fun hok => ?_) refused
    have hframe := h.startFrame hok hpre (.zero count.toNat)
    exact { hframe with at_listing := fun _ => atListing_of_upc_zero rfl }
  | _ => exact hi.elim

theorem hostAccess (hrun : s.status.seqState ≠ .run) (a : HostAccess) : Answers State.OnListing (s.hostAccess a) := by
  have hidle := h.idle_of_halted hrun
  have hpre := h.preempt_of_halted hrun
  refine .hostAccess (fun _ => h.of_idle rfl rfl hidle h.cfgOk_valid hpre) (fun _ => h.exec_command hrun) ?reserved
    fun idx v => ?write
  case reserved =>
    rw [State.badCommand_of_ne_fault h.no_fault]
    exact h.of_idle rfl rfl hidle h.cfgOk_valid hpre
  case write =>
    obtain ⟨tm, heq⟩ | ⟨_, heq⟩ | heq := regWrite_cases s idx v <;> rw [heq]
    · exact h.of_idle rfl rfl hidle h.cfgOk_valid hpre
    · exact h.of_idle rfl rfl hidle h.cfgOk_valid hpre
    · exact h

/-- NBITS fits the byte of LDBITS (R11). -/
theorem exists_nbits : ∃ n : BitVec 8, n.toNat = s.params.nbits ∧ 8 ≤ n.toNat := by
  obtain ⟨_, _, _, hle, _⟩ := (Params.wf_iff s.params).mp h.params_wf
  have hn : (BitVec.ofNat 8 s.params.nbits).toNat = s.params.nbits := by
    rw [BitVec.toNat_ofNat, Nat.mod_eq_of_lt (by omega)]
  exact ⟨_, hn, by rw [hn]; exact Nat.le_add_right 8 _⟩

/-- A running sequencer meets the listing's micro-op, which proceeds. -/
theorem exec_listed (hrun : s.status.seqState = .run) : ∃ n, s.upc.toNat < 42 ∧
    decodeUop s.fetched = .ok (listedAt n s.upc) ∧
    Answers (Proceeds (listedAt n s.upc) (.atWord s.upc.toNat) s.seqStart) (exec (listedAt n s.upc) s.seqStart) := by
  obtain ⟨hu, hfacts⟩ := (atListing_iff s).mp (h.at_listing hrun)
  obtain ⟨n, hn, hle⟩ := h.exists_nbits
  have hfetch : s.fetched = (Rom.reference n.toNat).fetch s.upc := by rw [State.fetched, h.rom_reference, hn]
  have hstart : s.seqStart.Meets (.atWord s.upc.toNat) := { hfacts with }
  exact ⟨n, hu, hfetch ▸ decodeUop_fetch_reference hle hu, exec_proceeds h.params_wf hstart (listedAt_ready n hu)⟩

end

end State.OnListing

/-- The sequencer's step keeps the invariant: it goes on to a word whose facts it has, polls, or ends the frame. -/
theorem exec_onListing {s s' : State} (h : s.OnListing) (hrun : s.status.seqState = .run) (hpre : s.env.preempt = 0)
    {i : Instr} (hdecode : decodeUop s.fetched = .ok i) (hexec : exec i s.seqStart = .next s') : s'.OnListing := by
  obtain ⟨n, hu, hlisted, hproceeds⟩ := h.exec_listed hrun
  obtain rfl : listedAt n s.upc = i := Except.ok.inj (hlisted.symm.trans hdecode)
  cases hproceeds s' hexec with
  | poll => exact h.seqStart
  | endok | endab => exact h.seqStart.of_idle rfl rfl rfl h.cfgOk_valid hpre
  | on hstatus hupc hfacts =>
    obtain ⟨hparams, hrom, _, _, _, _, _, hkept⟩ := (State.fixed_eq_iff _ _).mp (exec_keeps_fixed _ _ s' hexec)
    have hstatus' : s'.status = s.status := hstatus
    exact
      { params_wf := hparams ▸ h.params_wf
        rom_reference := by rw [hrom, hparams]; exact h.rom_reference
        cfgOk_valid := by rw [hstatus', hparams]; exact h.cfgOk_valid
        run_configured := by rw [hstatus']; exact h.run_configured
        no_fault := by rw [hstatus']; exact h.no_fault
        preempt_run := fun hpos => absurd (hkept.trans hpre) (Nat.ne_of_gt hpos)
        at_listing := fun _ => atListing_of_successor n hu hupc hfacts }

/-- Settles O56: every move keeps the invariant; the sequencer meets no illegal word. -/
theorem referenceRomNeverFaults : Obligations.ReferenceRomNeverFaults := by
  intro s s' h hstep
  cases moves_of_step hstep with
  | passed => exact h.popTurn
  | ticked => exact h.popTurn.tick
  | executed _ hrun hpre hdecode hexec => exact exec_onListing h hrun hpre hdecode hexec
  | illegal _ hrun _ hrejected =>
    obtain ⟨n, _, hlisted, _⟩ := h.exec_listed hrun
    cases hlisted.symm.trans hrejected
  | @accessed a q _ _ hrun _ haccess =>
    have hstart : (s.afterHostTurn q).OnListing := h.setEnv (e := (s.afterHostTurn q).env) h.preempt_run
    exact hstart.hostAccess hrun a s' haccess
  | prepared => exact h.popTurn.setEnv h.preempt_run
  | preempted _ hrun hie => exact h.popTurn.setEnv fun _ => ⟨hrun, hie⟩
  | reset => exact h.popTurn.laterReset

/-! The end of a frame (R298, R302). -/

/-- ENDOK stands at 0x01C and ENDAB at 0x020, and nowhere else. -/
def endsAt (n : BitVec 8) (u : UAddr) : Bool :=
  (decide (listedAt n u = .endok) == decide (u = 0x01C#10)) && (decide (listedAt n u = .endab) == decide (u = 0x020#10))

theorem listing_ends (n : BitVec 8) : ((List.range 42).all fun a => endsAt n (BitVec.ofNat 10 a)) = true := rfl

theorem endsAt_of_lt (n : BitVec 8) {u : UAddr} (hu : u.toNat < 42) :
    (listedAt n u = .endok → u = 0x01C#10) ∧ (listedAt n u = .endab → u = 0x020#10) := by
  have hat := List.all_eq_true.mp (listing_ends n) u.toNat (List.mem_range.mpr hu)
  rw [BitVec.ofNat_toNat, BitVec.setWidth_eq, endsAt, Bool.and_eq_true, beq_iff_eq, beq_iff_eq, decide_eq_decide,
    decide_eq_decide] at hat
  exact ⟨hat.1.mp, hat.2.mp⟩

/-- At either end of a frame the line is low and the timer stopped. -/
theorem State.AtListing.lineLow_stopped {s : State} (h : s.AtListing) (hupc : s.upc = 0x01C#10 ∨ s.upc = 0x020#10) :
    s.port.getLsbD s.params.pin = false ∧ s.timer.en = false := by
  obtain ⟨hmasks, hlow, hhigh, hstopped⟩ : 2 ≤ s.upc.toNat ∧ 3 ≤ s.upc.toNat ∧ (s.upc.toNat ≠ 0x25 ∧ s.upc.toNat ≠ 0x26) ∧
      ((0x1A ≤ s.upc.toNat ∧ s.upc.toNat ≤ 0x1C) ∨ (0x1E ≤ s.upc.toNat ∧ s.upc.toNat ≤ 0x20)) := by
    obtain hu | hu := hupc <;> rw [hu] <;> decide
  obtain ⟨_, lo, hlo, hpin⟩ := h.masks hmasks
  obtain rfl : lo = s.port := Option.some.inj (hlo.symm.trans (h.line_low hlow hhigh.1 hhigh.2))
  exact ⟨hpin, h.stopped hstopped⟩

/-- Settles O57: of the moves only the two ends of a frame lead from RUN to IDLE, and each stands at its one word. -/
theorem frameEndsWithTheLineLow : Obligations.FrameEndsWithTheLineLow := by
  intro s s' h hrun hreset hstep hidle
  have still (hstatus : s'.status = s.status) : False := by
    rw [hstatus, hrun] at hidle
    cases hidle
  cases moves_of_step hstep with
  | passed | ticked | preempted => exact (still rfl).elim
  | illegal => cases hidle
  | accessed _ hhalted | prepared _ hhalted => exact absurd hrun hhalted
  | reset hturn => exact absurd hturn hreset
  | executed _ _ _ hdecode hexec =>
    obtain ⟨n, hu, hlisted, hproceeds⟩ := h.exec_listed hrun
    obtain rfl := Except.ok.inj (hlisted.symm.trans hdecode)
    obtain ⟨hok, hab⟩ := endsAt_of_lt n hu
    have htrace : s.seqStart.trace = s.trace := rfl
    cases hproceeds s' hexec with
    | poll => exact (still rfl).elim
    | on hstatus => exact (still hstatus).elim
    | endok hi =>
      obtain ⟨hlow, hstopped⟩ := (h.seqStart.at_listing hrun).lineLow_stopped (.inl (hok hi))
      exact ⟨hlow, hstopped, rfl, htrace, .inl ⟨rfl, rfl, hok hi⟩⟩
    | endab hi =>
      obtain ⟨hlow, hstopped⟩ := (h.seqStart.at_listing hrun).lineLow_stopped (.inr (hab hi))
      exact ⟨hlow, hstopped, rfl, htrace, .inr ⟨rfl, rfl, hab hi⟩⟩

end Sys2Proof.Machine

/-! The ticks of a running timer (R151, R153): the count goes round modulo PER, the matches come at CMPA and CMPB and the
overflow at PER, and each flag stays. -/

namespace Sys2Proof.Machine

/-! The timer alone. -/

/-- `n` ticks of the timer. -/
def Timer.ticks (tm : Timer) (w : Nat) : Nat → Timer
  | 0 => tm
  | n + 1 => (tm.ticks w n).tick w

theorem Timer.ticks_add (tm : Timer) (w m n : Nat) : tm.ticks w (m + n) = (tm.ticks w m).ticks w n := by
  induction n with
  | zero => rfl
  | succ n ih => exact congrArg (·.tick w) ih

/-- The ticks of a state move time, the timer and the environment. -/
theorem ticks_frame (n : Nat) (s : State) :
    ∃ env, State.ticks n s = { s with t := s.t + n, timer := s.timer.ticks s.params.cntW n, env := env } := by
  induction n with
  | zero => exact ⟨s.env, rfl⟩
  | succ n ih =>
    obtain ⟨env, heq⟩ := ih
    rw [State.ticks, heq]
    exact ⟨_, rfl⟩

/-- The timer runs within its period, and the period within the counter. -/
structure Timer.Counts (tm : Timer) (w : Nat) : Prop where
  en : tm.en = true
  cnt_lt : tm.cnt < tm.per
  per_lt : tm.per < 2 ^ w

section
variable {tm : Timer} {w : Nat} (h : tm.Counts w)
include h

theorem Timer.Counts.next_count : (tm.cnt + 1) % 2 ^ w = tm.cnt + 1 := by
  have := h.cnt_lt
  have := h.per_lt
  exact Nat.mod_eq_of_lt (by omega)

theorem Timer.Counts.tick_cnt : (tm.tick w).cnt = (tm.cnt + 1) % tm.per := by
  have hlt := h.cnt_lt
  have hnext := h.next_count
  by_cases hper : tm.cnt + 1 = tm.per
  · rw [tick_wrap tm w h.en (hnext.trans hper), hper, Nat.mod_self]
  · have hne : (tm.cnt + 1) % 2 ^ w ≠ tm.per := fun heq => hper (hnext.symm.trans heq)
    rw [tick_count tm w h.en hne, Nat.mod_eq_of_lt (by omega : tm.cnt + 1 < tm.per)]
    exact hnext

theorem Timer.Counts.tick_ovf : (tm.tick w).ovf = (tm.ovf || decide (tm.cnt + 1 = tm.per)) := by
  have hnext := h.next_count
  by_cases hper : tm.cnt + 1 = tm.per
  · simp [tick_wrap tm w h.en (hnext.trans hper), hper]
  · have hne : (tm.cnt + 1) % 2 ^ w ≠ tm.per := fun heq => hper (hnext.symm.trans heq)
    simp [tick_count tm w h.en hne, hper]

theorem Timer.Counts.tick_ma : (tm.tick w).ma = (tm.ma || decide ((tm.tick w).cnt = tm.cmpa)) := by
  simp [Timer.tick, h.en]

theorem Timer.Counts.tick_mb : (tm.tick w).mb = (tm.mb || decide ((tm.tick w).cnt = tm.cmpb)) := by
  simp [Timer.tick, h.en]

theorem Timer.Counts.tick : (tm.tick w).Counts w where
  en := (tick_en tm w).trans h.en
  cnt_lt := by
    rw [h.tick_cnt, tick_per]
    exact Nat.mod_lt _ (Nat.zero_lt_of_lt h.cnt_lt)
  per_lt := (tick_per tm w).symm ▸ h.per_lt

theorem Timer.Counts.ticks (n : Nat) : (tm.ticks w n).Counts w := by
  induction n with
  | zero => exact h
  | succ n ih => exact ih.tick

end

@[simp] theorem Timer.ticks_en (tm : Timer) (w n : Nat) : (tm.ticks w n).en = tm.en := by
  induction n with
  | zero => rfl
  | succ n ih => exact (tick_en _ w).trans ih

@[simp] theorem Timer.ticks_per (tm : Timer) (w n : Nat) : (tm.ticks w n).per = tm.per := by
  induction n with
  | zero => rfl
  | succ n ih => exact (tick_per _ w).trans ih

@[simp] theorem Timer.ticks_cmpa (tm : Timer) (w n : Nat) : (tm.ticks w n).cmpa = tm.cmpa := by
  induction n with
  | zero => rfl
  | succ n ih => exact (tick_cmpa _ w).trans ih

@[simp] theorem Timer.ticks_cmpb (tm : Timer) (w n : Nat) : (tm.ticks w n).cmpb = tm.cmpb := by
  induction n with
  | zero => rfl
  | succ n ih => exact (tick_cmpb _ w).trans ih

section
variable {tm : Timer} {w : Nat} (h : tm.Counts w)
include h

theorem Timer.Counts.ticks_cnt (n : Nat) : (tm.ticks w n).cnt = (tm.cnt + n) % tm.per := by
  induction n with
  | zero => exact (Nat.mod_eq_of_lt h.cnt_lt).symm
  | succ n ih => rw [Timer.ticks, (h.ticks n).tick_cnt, ih, Timer.ticks_per, Nat.mod_add_mod, Nat.add_assoc]

/-- OVF is set from the tick that brings the count to PER. -/
theorem Timer.Counts.ticks_ovf (n : Nat) : (tm.ticks w n).ovf = (tm.ovf || decide (tm.per ≤ tm.cnt + n)) := by
  induction n with
  | zero =>
    have hlt : ¬ tm.per ≤ tm.cnt := Nat.not_le_of_lt h.cnt_lt
    simp [Timer.ticks, hlt]
  | succ n ih =>
    have hcount : (tm.per ≤ tm.cnt + n ∨ (tm.cnt + n) % tm.per + 1 = tm.per) ↔ tm.per ≤ tm.cnt + (n + 1) := by
      by_cases hlt : tm.cnt + n < tm.per
      · rw [Nat.mod_eq_of_lt hlt]
        omega
      · exact iff_of_true (.inl (by omega)) (by omega)
    rw [Timer.ticks, (h.ticks n).tick_ovf, ih, h.ticks_cnt, Timer.ticks_per, Bool.or_assoc, ← Bool.decide_or,
      decide_eq_decide.mpr hcount]

end

/-- Counted from 0, a number within the period has come up exactly if it is not above the ticks. -/
theorem mod_reaches_iff {c per n : Nat} (hlt : c < per) : (c ≤ n ∨ (n + 1) % per = c) ↔ c ≤ n + 1 := by
  by_cases hn : n + 1 < per
  · rw [Nat.mod_eq_of_lt hn]
    omega
  · exact iff_of_true (.inl (by omega)) (by omega)

section
variable {tm : Timer} {w : Nat} (h : tm.Counts w) (hcnt : tm.cnt = 0)
include h hcnt

/-- A sticky flag that is set where the count comes to `c` is set from tick `c` on. -/
theorem Timer.Counts.ticks_match {flag : Timer → Bool} {c : Nat} (hoff : flag tm = false) (hpos : 1 ≤ c) (hlt : c < tm.per)
    (hset : ∀ x : Timer, x.Counts w → x.cmpa = tm.cmpa → x.cmpb = tm.cmpb →
      flag (x.tick w) = (flag x || decide ((x.tick w).cnt = c))) (n : Nat) :
    flag (tm.ticks w n) = decide (c ≤ n) := by
  induction n with
  | zero => simp [Timer.ticks, hoff, Nat.ne_of_gt hpos]
  | succ n ih =>
    have hcount : ((tm.ticks w n).tick w).cnt = (n + 1) % tm.per := by
      have := h.ticks_cnt (n + 1)
      rwa [hcnt, Nat.zero_add] at this
    rw [Timer.ticks, hset _ (h.ticks n) (tm.ticks_cmpa w n) (tm.ticks_cmpb w n), ih, hcount, ← Bool.decide_or,
      decide_eq_decide.mpr (mod_reaches_iff hlt)]

/-- MA is set from tick CMPA on. -/
theorem Timer.Counts.ticks_ma (hma : tm.ma = false) (hpos : 1 ≤ tm.cmpa) (hlt : tm.cmpa < tm.per) (n : Nat) :
    (tm.ticks w n).ma = decide (tm.cmpa ≤ n) :=
  h.ticks_match hcnt hma hpos hlt (fun _ hx ha _ => ha ▸ hx.tick_ma) n

/-- MB is set from tick CMPB on. -/
theorem Timer.Counts.ticks_mb (hmb : tm.mb = false) (hpos : 1 ≤ tm.cmpb) (hlt : tm.cmpb < tm.per) (n : Nat) :
    (tm.ticks w n).mb = decide (tm.cmpb ≤ n) :=
  h.ticks_match hcnt hmb hpos hlt (fun _ hx _ hb => hb ▸ hx.tick_mb) n

end

/-! The statement from a TRST. -/

/-- A period that fits the counter is not reduced, nor is a part of it. -/
theorem cntBits_of_valid {p : Params} (h : p.valid = true) {n : Nat} (hn : n ≤ p.t1 + p.t2 + p.t3) : p.cntBits n = n := by
  obtain ⟨_, hfits, _⟩ := p.valid_iff.mp h
  have hpos : 0 < 2 ^ p.cntW := by positivity
  exact Nat.mod_eq_of_lt (by omega)

/-- Settles O15: the count, the matches and the overflow from a restarted timer; and TCFG's values, which fit. -/
theorem matchesComeAtTheirTicks : Obligations.MatchesComeAtTheirTicks := by
  refine ⟨fun s s' n hen hapos halt hbpos hblt hfits hexec => ?ticks, fun s s' hvalid hexec => ?tcfg⟩
  case ticks =>
    cases hexec
    have h : s.timer.restart.Counts s.params.cntW := ⟨hen, Nat.zero_lt_of_lt halt, hfits⟩
    have hcnt : s.timer.restart.cnt = 0 := rfl
    obtain ⟨env, heq⟩ := ticks_frame n (s.setTimer s.timer.restart).advance
    rw [heq]
    refine ⟨rfl, ?ma, ?mb, ?ovf, fun hn => ?cnt⟩
    case ma => exact (Bool.eq_iff_iff.mp (h.ticks_ma hcnt rfl hapos halt n)).trans decide_eq_true_iff
    case mb => exact (Bool.eq_iff_iff.mp (h.ticks_mb hcnt rfl hbpos hblt n)).trans decide_eq_true_iff
    case ovf =>
      have hovf := h.ticks_ovf n
      rw [hcnt, Nat.zero_add] at hovf
      exact (Bool.eq_iff_iff.mp hovf).trans decide_eq_true_iff
    case cnt =>
      refine (h.ticks_cnt n).trans ?_
      rw [hcnt, Nat.zero_add, hn]
      exact Nat.mod_self _
  case tcfg =>
    cases hexec
    exact ⟨cntBits_of_valid hvalid (by omega), cntBits_of_valid hvalid (by omega), cntBits_of_valid hvalid le_rfl⟩

end Sys2Proof.Machine

/-! WRITE_BITS under the ideal schedule (R14, R204, R226 to R230): what a row of steps does to the part of the state that
the routine works on, one rule per micro-op and one for the ticks of a wait; from these one bit, and from the bit the byte. -/

namespace Sys2Proof.Machine

/-! Rows of steps. -/

theorem run_one {s s' : State} (h : step s = .next s') : Host.Core.run Sys2Proof.core 1 s = .next s' := by
  have hstep : Sys2Proof.core.step s = .next s' := h
  simp only [Host.Core.run, hstep]

theorem run_add {j : Nat} {s s' : State} (h : Host.Core.run Sys2Proof.core j s = .next s') (k : Nat) :
    Host.Core.run Sys2Proof.core (j + k) s = Host.Core.run Sys2Proof.core k s' := by
  induction j generalizing s with
  | zero =>
    cases h
    rw [Nat.zero_add]
  | succ j ih =>
    rw [Nat.succ_add]
    simp only [Host.Core.run] at h ⊢
    split at h
    · exact ih h
    · cases h
    · cases h

/-- The part of the state that WRITE_BITS works on. -/
structure Snapshot where
  upc : UAddr
  timer : Timer
  port : PortWord
  regs : SeqRegs
  trace : List (Nat × PortWord)
  t : Nat

def State.snapshot (s : State) : Snapshot := ⟨s.upc, s.timer, s.port, s.regs, s.trace, s.t⟩

/-- `s` with that part as `x` has it. -/
def State.withSnapshot (s : State) (x : Snapshot) : State :=
  { s with upc := x.upc, timer := x.timer, port := x.port, regs := x.regs, trace := x.trace, t := x.t }

/-- With the parameters `p` and under the ideal schedule, `k` steps from the part `x` lead to the part `y`. -/
def Runs (p : Params) (k : Nat) (x y : Snapshot) : Prop :=
  ∀ s : State, s.IdealRun → s.params = p → s.snapshot = x →
    ∃ s', Host.Core.run Sys2Proof.core k s = .next s' ∧ s'.IdealRun ∧ s'.params = p ∧ s'.snapshot = y

theorem Runs.refl (p : Params) (x : Snapshot) : Runs p 0 x x := fun s hs hp hx => ⟨s, rfl, hs, hp, hx⟩

theorem Runs.trans {p : Params} {j k : Nat} {x y z : Snapshot} (hxy : Runs p j x y) (hyz : Runs p k y z) :
    Runs p (j + k) x z := by
  intro s hs hp hx
  obtain ⟨s', hrun, hs', hp', hy⟩ := hxy s hs hp hx
  obtain ⟨s'', hrun', h⟩ := hyz s' hs' hp' hy
  exact ⟨s'', (run_add hrun k).trans hrun', h⟩

/-! The ideal schedule. -/

/-- At a blocked micro-op the ideal schedule gives the timer the turn (R14). -/
theorem nextTurn_of_blocked {s : State} {i : Instr} (hrun : s.status.seqState = .run)
    (hdecode : decodeUop s.fetched = .ok i) (hturns : s.env.turns = []) (hblocked : s.blockedOn i = true) : s.nextTurn = .tick := by
  have hoff : s.enabled = false := by simp [State.enabled, hrun, hdecode, hblocked]
  have hhost : s.canTake .host = false := by simp [State.canTake, hrun]
  rw [State.nextTurn, hturns]
  show s.autoTurn = .tick
  rw [State.autoTurn, hoff, hhost]
  rfl

/-- An ideal run meets the listing's micro-ops. -/
theorem State.IdealRun.decode {s : State} (h : s.IdealRun) (hu : s.upc.toNat < 42) :
    ∃ n : BitVec 8, n.toNat = s.params.nbits ∧ decodeUop s.fetched = .ok (listedAt n s.upc) := by
  have hle := h.nbits
  have hn : (BitVec.ofNat 8 s.params.nbits).toNat = s.params.nbits := by
    rw [BitVec.toNat_ofNat, Nat.mod_eq_of_lt (by omega)]
  have hge : 8 ≤ (BitVec.ofNat 8 s.params.nbits).toNat := by rw [hn]; exact Nat.le_add_right 8 _
  refine ⟨_, hn, ?_⟩
  rw [State.fetched, h.rom, ← hn]
  simpa only [hn] using decodeUop_fetch_reference hge hu

/-- An ideal run goes on with the same ROM, status and parameters, whatever the part WRITE_BITS works on. -/
theorem State.IdealRun.seqStart_withSnapshot {s : State} (h : s.IdealRun) (x : Snapshot) :
    (s.seqStart.withSnapshot x).IdealRun where
  rom := h.rom
  nbits := h.nbits
  run := h.run
  turns := congrArg List.tail h.turns
  preempt := h.preempt

theorem State.IdealRun.popTurn_tick {s : State} (h : s.IdealRun) : s.popTurn.tick.IdealRun where
  rom := h.rom
  nbits := h.nbits
  run := h.run
  turns := congrArg List.tail h.turns
  preempt := congrArg (· - 1) h.preempt

section
variable {p : Params} {x : Snapshot} {i : Instr}

/-- The micro-op at upc is free, and its meaning is the change from `x` to `y`. -/
theorem Runs.microOp {y : Snapshot} (hu : x.upc.toNat < 42)
    (hlisted : ∀ n : BitVec 8, n.toNat = p.nbits → listedAt n x.upc = i)
    (hfree : ∀ s : State, s.snapshot = x → s.blockedOn i = false)
    (hexec : ∀ s : State, s.snapshot = x → exec i s = .next (s.withSnapshot y)) : Runs p 1 x y := by
  rintro s hs rfl rfl
  obtain ⟨n, hn, hdecode⟩ := hs.decode hu
  have hi : listedAt n s.upc = i := hlisted n hn
  rw [hi] at hdecode
  have hturn := nextTurn_of_free hs.run hs.preempt hdecode hs.turns (hfree s rfl)
  have hstep : step s = .next (s.seqStart.withSnapshot y) :=
    (step_of_seq_turn_of_decode hturn hs.run hs.preempt hdecode).trans (hexec s.seqStart rfl)
  exact ⟨_, run_one hstep, hs.seqStart_withSnapshot y, rfl, rfl⟩

/-- `x` after `n` ticks. -/
def Snapshot.ticks (x : Snapshot) (w n : Nat) : Snapshot := { x with timer := x.timer.ticks w n, t := x.t + n }

/-- The micro-op at upc is blocked, and the timer ticks. -/
theorem Runs.tick (hu : x.upc.toNat < 42) (hlisted : ∀ n : BitVec 8, n.toNat = p.nbits → listedAt n x.upc = i)
    (hblocked : ∀ s : State, s.snapshot = x → s.blockedOn i = true) : Runs p 1 x (x.ticks p.cntW 1) := by
  rintro s hs rfl rfl
  obtain ⟨n, hn, hdecode⟩ := hs.decode hu
  have hi : listedAt n s.upc = i := hlisted n hn
  rw [hi] at hdecode
  have hturn := nextTurn_of_blocked hs.run hdecode hs.turns (hblocked s rfl)
  exact ⟨_, run_one (step_of_tick_turn hturn), hs.popTurn_tick, rfl, rfl⟩

/-- The micro-op at upc is blocked for `n` ticks. -/
theorem Runs.wait (hu : x.upc.toNat < 42) (hlisted : ∀ n : BitVec 8, n.toNat = p.nbits → listedAt n x.upc = i) {n : Nat}
    (hblocked : ∀ j < n, ∀ s : State, s.snapshot = x.ticks p.cntW j → s.blockedOn i = true) :
    Runs p n x (x.ticks p.cntW n) := by
  induction n with
  | zero => exact .refl p x
  | succ n ih =>
    have hbefore := ih fun j hj => hblocked j (Nat.lt_succ_of_lt hj)
    exact hbefore.trans (.tick (x := x.ticks p.cntW n) hu hlisted (hblocked n (Nat.lt_succ_self n)))

end

/-! The micro-ops of WRITE_BITS (R226, R228). -/

section
variable {p : Params} {x : Snapshot}

theorem Runs.ldbits {n : BitVec 8} (hn : n.toNat = p.nbits) (hu : x.upc = 0x021#10) :
    Runs p 1 x { x with upc := 0x022#10, regs := { x.regs with i := some n } } := by
  refine .microOp (i := .ldbits n) (by simp [hu]) (fun m hm => ?_) (fun _ _ => rfl) ?_
  · rw [hu, BitVec.eq_of_toNat_eq (hm.trans hn.symm)]
    rfl
  · rintro s rfl
    have hupc : s.upc + 1 = 0x022#10 := congrArg (· + 1) hu
    rw [exec_ldbits, State.setRegs_advance_eq, hupc]
    rfl

theorem Runs.waitOvf {n : Nat} (hu : x.upc = 0x022#10) (hoff : ∀ j < n, (x.timer.ticks p.cntW j).ovf = false) :
    Runs p n x (x.ticks p.cntW n) := by
  refine .wait (i := .waitf 0#2) (by simp [hu]) (fun _ _ => by rw [hu]; rfl) fun j hj s hs => ?_
  have htimer : s.timer = x.timer.ticks p.cntW j := congrArg Snapshot.timer hs
  simp [State.blockedOn, htimer, hoff j hj]

theorem Runs.waitfOvf (hu : x.upc = 0x022#10) (hovf : x.timer.ovf = true) : Runs p 1 x { x with upc := 0x023#10 } := by
  refine .microOp (i := .waitf 0#2) (by simp [hu]) (fun _ _ => by rw [hu]; rfl) ?_ ?_
  · rintro s rfl
    have hflag : s.timer.ovf = true := hovf
    simp [State.blockedOn, hflag]
  · rintro s rfl
    have hflag : s.timer.flag 0#2 = some true := congrArg some hovf
    have hupc : s.upc + 1 = 0x023#10 := congrArg (· + 1) hu
    rw [exec_waitf_of_flag hflag, if_pos rfl, hupc]
    rfl

theorem Runs.trst (hu : x.upc = 0x023#10) : Runs p 1 x { x with upc := 0x024#10, timer := x.timer.restart } := by
  refine .microOp (i := .trst) (by simp [hu]) (fun _ _ => by rw [hu]; rfl) (fun _ _ => rfl) ?_
  rintro s rfl
  have hupc : s.upc + 1 = 0x024#10 := congrArg (· + 1) hu
  rw [exec_trst, State.advance_eq, State.setTimer_upc, hupc]
  rfl

theorem Runs.pwh {hi : PortWord} (hu : x.upc = 0x024#10) (hhi : x.regs.hi = some hi) :
    Runs p 1 x { x with upc := 0x025#10, port := hi, trace := x.trace ++ [(x.t, hi)] } := by
  refine .microOp (i := .pwh) (by simp [hu]) (fun _ _ => by rw [hu]; rfl) (fun _ _ => rfl) ?_
  rintro s rfl
  have hupc : s.upc + 1 = 0x025#10 := congrArg (· + 1) hu
  rw [exec_pwh, withWritten_of_eq_some (r := s.regs.hi) hhi, State.portWrite_eq, State.advance_eq, hupc]
  rfl

theorem Runs.waitMatch {b : Byte} {n : Nat} (hu : x.upc = 0x025#10) (hb : x.regs.b = some b)
    (hoff : ∀ j < n, (x.timer.ticks p.cntW j).bitMatch b = false) : Runs p n x (x.ticks p.cntW n) := by
  refine .wait (i := .wsel) (by simp [hu]) (fun _ _ => by rw [hu]; rfl) fun j hj s hs => ?_
  have htimer : s.timer = x.timer.ticks p.cntW j := congrArg Snapshot.timer hs
  have hreg : s.regs.b = some b := (congrArg (·.regs.b) hs).trans hb
  simp [State.blockedOn, htimer, hreg, hoff j hj]

theorem Runs.wsel {b : Byte} (hu : x.upc = 0x025#10) (hb : x.regs.b = some b) (hmatch : x.timer.bitMatch b = true) :
    Runs p 1 x { x with upc := 0x026#10 } := by
  refine .microOp (i := .wsel) (by simp [hu]) (fun _ _ => by rw [hu]; rfl) ?_ ?_
  · rintro s rfl
    have hreg : s.regs.b = some b := hb
    have hcome : s.timer.bitMatch b = true := hmatch
    simp [State.blockedOn, hreg, hcome]
  · rintro s rfl
    have hcome : s.timer.bitMatch b = true := hmatch
    have hupc : s.upc + 1 = 0x026#10 := congrArg (· + 1) hu
    rw [exec_wsel_of_written hb, hcome, if_pos rfl, hupc]
    rfl

theorem Runs.pwl {lo : PortWord} (hu : x.upc = 0x026#10) (hlo : x.regs.lo = some lo) :
    Runs p 1 x { x with upc := 0x027#10, port := lo, trace := x.trace ++ [(x.t, lo)] } := by
  refine .microOp (i := .pwl) (by simp [hu]) (fun _ _ => by rw [hu]; rfl) (fun _ _ => rfl) ?_
  rintro s rfl
  have hupc : s.upc + 1 = 0x027#10 := congrArg (· + 1) hu
  rw [exec_pwl, withWritten_of_eq_some (r := s.regs.lo) hlo, State.portWrite_eq, State.advance_eq, hupc]
  rfl

theorem Runs.shl {b i : Byte} (hu : x.upc = 0x027#10) (hb : x.regs.b = some b) (hi : x.regs.i = some i) :
    Runs p 1 x { x with upc := 0x028#10, regs := { x.regs with b := some (b <<< 1), i := some (i - 1) } } := by
  refine .microOp (i := .shl) (by simp [hu]) (fun _ _ => by rw [hu]; rfl) (fun _ _ => rfl) ?_
  rintro s rfl
  have hupc : s.upc + 1 = 0x028#10 := congrArg (· + 1) hu
  rw [exec_shl, withWritten_of_eq_some (r := s.regs.b) hb, withWritten_of_eq_some (r := s.regs.i) hi,
    State.setRegs_advance_eq, hupc]
  rfl

/-- BNZ goes back for the next bit, or falls through to the RET after the last. -/
theorem Runs.bnz {i : Byte} (hu : x.upc = 0x028#10) (hi : x.regs.i = some i) :
    Runs p 1 x { x with upc := if i = 0#8 then 0x029#10 else 0x022#10 } := by
  refine .microOp (i := .bnz 0x022) (by simp [hu]) (fun _ _ => by rw [hu]; rfl) (fun _ _ => rfl) ?_
  rintro s rfl
  have hupc : s.upc + 1 = 0x029#10 := congrArg (· + 1) hu
  rw [exec_bnz, withWritten_of_eq_some (r := s.regs.i) hi, State.branch_bne_zero, hupc]
  rfl

theorem Runs.ret {lr : UAddr} (hu : x.upc = 0x029#10) (hlr : x.regs.lr = some lr) : Runs p 1 x { x with upc := lr } := by
  refine .microOp (i := .ret) (by simp [hu]) (fun _ _ => by rw [hu]; rfl) (fun _ _ => rfl) ?_
  rintro s rfl
  rw [exec_ret, withWritten_of_eq_some (r := s.regs.lr) hlr, State.jump_eq]
  rfl

end

/-! The timer of a slot (R204, R230). -/

/-- The timer runs with the protocol's values of the parameters: State.TimerRunning of the timer alone. -/
structure Timer.Protocol (tm : Timer) (p : Params) : Prop where
  en : tm.en = true
  per : tm.per = p.perCfg
  cmpa : tm.cmpa = p.t1
  cmpb : tm.cmpb = p.t1 + p.t2
  fits : p.perCfg ≤ 2 ^ p.cntW - 1
  t1_pos : 1 ≤ p.t1
  t2_pos : 1 ≤ p.t2
  t3_pos : 1 ≤ p.t3

theorem timerRunning_iff (s : State) : s.TimerRunning ↔ s.timer.Protocol s.params :=
  ⟨fun h => { h with }, fun h => { h with }⟩

section
variable {tm : Timer} {p : Params} (h : tm.Protocol p)
include h

theorem Timer.Protocol.restart : tm.restart.Protocol p := { h with }

theorem Timer.Protocol.ticks (n : Nat) : (tm.ticks p.cntW n).Protocol p :=
  { h with
    en := (tm.ticks_en _ n).trans h.en
    per := (tm.ticks_per _ n).trans h.per
    cmpa := (tm.ticks_cmpa _ n).trans h.cmpa
    cmpb := (tm.ticks_cmpb _ n).trans h.cmpb }

theorem Timer.Protocol.per_lt : tm.per < 2 ^ p.cntW := by
  have hpos : 0 < 2 ^ p.cntW := by positivity
  have hfits := h.fits
  rw [h.per]
  omega

theorem Timer.Protocol.counts (hcnt : tm.cnt < tm.per) : tm.Counts p.cntW := ⟨h.en, hcnt, h.per_lt⟩

/-- A slot lasts longer than its high pulse, and a pulse at least a tick (R316). -/
theorem Timer.Protocol.highTicks_lt (b : Bool) : p.highTicks b < p.perCfg := by
  have := h.t2_pos
  have := h.t3_pos
  cases b <;> simp [Params.highTicks, Params.perCfg] <;> omega

theorem Timer.Protocol.restart_counts : tm.restart.Counts p.cntW := by
  refine h.restart.counts ?_
  show 0 < tm.per
  rw [h.per]
  exact Nat.zero_lt_of_lt (h.highTicks_lt true)

/-- Counted from the start of the slot, the match of the bit comes at T(b). -/
theorem Timer.Protocol.restart_bitMatch (b : Byte) (n : Nat) :
    (tm.restart.ticks p.cntW n).bitMatch b = decide (p.highTicks (b.getLsbD 7) ≤ n) := by
  have hcounts := h.restart_counts
  have hapos : 1 ≤ tm.restart.cmpa := h.cmpa ▸ h.t1_pos
  have hbpos : 1 ≤ tm.restart.cmpb := by
    rw [h.restart.cmpb]
    exact Nat.le_add_right_of_le h.t1_pos
  have halt : tm.restart.cmpa < tm.restart.per := by
    rw [h.restart.cmpa, h.restart.per]
    exact h.highTicks_lt false
  have hblt : tm.restart.cmpb < tm.restart.per := by
    rw [h.restart.cmpb, h.restart.per]
    exact h.highTicks_lt true
  cases hb : b.getLsbD 7 with
  | false => rw [Timer.bitMatch, hb, if_neg Bool.false_ne_true, hcounts.ticks_ma rfl rfl hapos halt, h.restart.cmpa]; rfl
  | true => rw [Timer.bitMatch, hb, if_pos rfl, hcounts.ticks_mb rfl rfl hbpos hblt, h.restart.cmpb]; rfl

/-- Counted from the start of the slot, the overflow comes at PER. -/
theorem Timer.Protocol.restart_ovf (n : Nat) : (tm.restart.ticks p.cntW n).ovf = decide (p.perCfg ≤ n) := by
  have hcnt : tm.restart.cnt = 0 := rfl
  have hovf : tm.restart.ovf = false := rfl
  rw [h.restart_counts.ticks_ovf, hcnt, hovf, h.restart.per, Nat.zero_add, Bool.false_or]

end

/-! One bit. -/

/-- The routine stands at its WAITF OVF with `v` to send, `i` bits of it left, and the masks. -/
structure Snapshot.AtBit (x : Snapshot) (p : Params) (v i : Byte) (hi lo : PortWord) : Prop where
  upc : x.upc = 0x022#10
  timer : x.timer.Protocol p
  byte : x.regs.b = some v
  count : x.regs.i = some i
  high : x.regs.hi = some hi
  low : x.regs.lo = some lo

/-- `x` after the pulse of the first bit of `v`, at the next WAITF OVF, or at the RET where the bit was the last. -/
def Snapshot.pulsed (x : Snapshot) (p : Params) (v i : Byte) (hi lo : PortWord) : Snapshot where
  upc := if i = 1#8 then 0x029#10 else 0x022#10
  timer := x.timer.restart.ticks p.cntW (p.highTicks (v.getLsbD 7))
  port := lo
  regs := { x.regs with b := some (v <<< 1), i := some (i - 1) }
  trace := x.trace ++ [(x.t, hi), (x.t + p.highTicks (v.getLsbD 7), lo)]
  t := x.t + p.highTicks (v.getLsbD 7)

/-- `x` after the slot of a bit that is not the last. -/
def Snapshot.slotDone (x : Snapshot) (p : Params) (v i : Byte) (hi lo : PortWord) : Snapshot :=
  (x.pulsed p v i hi lo).ticks p.cntW (p.perCfg - p.highTicks (v.getLsbD 7))

theorem sub_one_eq_zero_iff (i : Byte) : i - 1 = 0#8 ↔ i = 1#8 := by
  constructor <;> intro h <;> bv_omega

section
variable {x : Snapshot} {p : Params} {v i : Byte} {hi lo : PortWord} (h : x.AtBit p v i hi lo)
include h

/-- From the boundary, the seven micro-ops of the loop and the ticks of WSEL's wait send the bit. -/
theorem Snapshot.AtBit.runs_pulsed (hovf : x.timer.ovf = true) :
    Runs p (7 + p.highTicks (v.getLsbD 7)) x (x.pulsed p v i hi lo) := by
  have hearly : ∀ j < p.highTicks (v.getLsbD 7), (x.timer.restart.ticks p.cntW j).bitMatch v = false := fun j hj => by
    rw [h.timer.restart_bitMatch]
    exact decide_eq_false (by omega)
  have hmatch : (x.timer.restart.ticks p.cntW (p.highTicks (v.getLsbD 7))).bitMatch v = true := by
    rw [h.timer.restart_bitMatch]
    exact decide_eq_true le_rfl
  have hrise := ((Runs.waitfOvf (p := p) h.upc hovf).trans (.trst rfl)).trans (.pwh rfl h.high)
  have hwait := hrise.trans (.waitMatch rfl h.byte hearly)
  have hfall := (hwait.trans (.wsel rfl h.byte hmatch)).trans (.pwl rfl h.low)
  have hrow := (hfall.trans (.shl rfl h.byte h.count)).trans (.bnz rfl rfl)
  have hsteps : 1 + 1 + 1 + p.highTicks (v.getLsbD 7) + 1 + 1 + 1 + 1 = 7 + p.highTicks (v.getLsbD 7) := by omega
  rw [hsteps] at hrow
  simpa only [Snapshot.pulsed, Snapshot.ticks, sub_one_eq_zero_iff, List.append_assoc, List.cons_append, List.nil_append]
    using hrow

theorem Snapshot.AtBit.pulsed_timer : (x.pulsed p v i hi lo).timer.Protocol p := h.timer.restart.ticks _

/-- The slot's timer has gone round once. -/
theorem Snapshot.AtBit.slotDone_timer : (x.slotDone p v i hi lo).timer = x.timer.restart.ticks p.cntW p.perCfg := by
  have hlt := h.timer.highTicks_lt (v.getLsbD 7)
  have hsum : p.highTicks (v.getLsbD 7) + (p.perCfg - p.highTicks (v.getLsbD 7)) = p.perCfg := by omega
  exact (Timer.ticks_add _ _ _ _).symm.trans (congrArg _ hsum)

theorem Snapshot.AtBit.slotDone_ovf : (x.slotDone p v i hi lo).timer.ovf = true := by
  rw [h.slotDone_timer, h.timer.restart_ovf]
  exact decide_eq_true le_rfl

theorem Snapshot.AtBit.slotDone_t : (x.slotDone p v i hi lo).t = x.t + p.perCfg := by
  have hlt := h.timer.highTicks_lt (v.getLsbD 7)
  show x.t + p.highTicks (v.getLsbD 7) + (p.perCfg - p.highTicks (v.getLsbD 7)) = _
  omega

/-- With bits left the next WAITF OVF waits for the end of the slot. -/
theorem Snapshot.AtBit.runs_slotDone (hovf : x.timer.ovf = true) (hne : i ≠ 1#8) :
    Runs p (7 + p.perCfg) x (x.slotDone p v i hi lo) := by
  have hlt := h.timer.highTicks_lt (v.getLsbD 7)
  have hupc : (x.pulsed p v i hi lo).upc = 0x022#10 := if_neg hne
  have hearly : ∀ j < p.perCfg - p.highTicks (v.getLsbD 7),
      ((x.pulsed p v i hi lo).timer.ticks p.cntW j).ovf = false := fun j hj => by
    rw [Snapshot.pulsed, ← Timer.ticks_add, h.timer.restart_ovf]
    exact decide_eq_false (by omega)
  have hrow := (h.runs_pulsed hovf).trans (.waitOvf hupc hearly)
  have hsteps : 7 + p.highTicks (v.getLsbD 7) + (p.perCfg - p.highTicks (v.getLsbD 7)) = 7 + p.perCfg := by omega
  rwa [hsteps] at hrow

/-- After the slot the routine stands at the next bit. -/
theorem Snapshot.AtBit.slotDone_atBit (hne : i ≠ 1#8) : (x.slotDone p v i hi lo).AtBit p (v <<< 1) (i - 1) hi lo where
  upc := if_neg hne
  timer := h.pulsed_timer.ticks _
  byte := rfl
  count := rfl
  high := h.high
  low := h.low

end

/-- Settles O58: the slot where bits are left, the pulse alone after the last. -/
theorem bitIsOnePulseOfItsSlot : Obligations.BitIsOnePulseOfItsSlot := by
  intro s b i hi lo hs htimer hupc hovf hb hi' hhi hlo
  have h : s.snapshot.AtBit s.params b i hi lo := ⟨hupc, (timerRunning_iff s).mp htimer, hb, hi', hhi, hlo⟩
  refine ⟨fun hne => ?slot, fun hlast => ?last⟩
  case slot =>
    obtain ⟨s', hrun, hs', hp', hx'⟩ := h.runs_slotDone hovf hne s hs rfl rfl
    have htimer' : s'.timer.Protocol s'.params := by
      rw [hp', show s'.timer = _ from congrArg Snapshot.timer hx']
      exact (h.slotDone_atBit hne).timer
    refine ⟨s', hrun, hs', (timerRunning_iff s').mpr htimer', hp', ?upc, ?ovf, ?t, ?port, ?trace, ?regs⟩
    case upc => exact (congrArg Snapshot.upc hx').trans (if_neg hne)
    case ovf => exact (congrArg (·.timer.ovf) hx').trans h.slotDone_ovf
    case t => exact (congrArg Snapshot.t hx').trans h.slotDone_t
    case port => exact congrArg Snapshot.port hx'
    case trace => exact congrArg Snapshot.trace hx'
    case regs => exact congrArg Snapshot.regs hx'
  case last =>
    obtain ⟨s', hrun, hs', hp', hx'⟩ := h.runs_pulsed hovf s hs rfl rfl
    have htimer' : s'.timer.Protocol s'.params := by
      rw [hp', show s'.timer = _ from congrArg Snapshot.timer hx']
      exact h.pulsed_timer
    refine ⟨s', hrun, hs', (timerRunning_iff s').mpr htimer', hp', ?upc', ?t', ?port', ?trace', ?regs'⟩
    case upc' => exact (congrArg Snapshot.upc hx').trans (if_pos hlast)
    case t' => exact congrArg Snapshot.t hx'
    case port' => exact congrArg Snapshot.port hx'
    case trace' => exact congrArg Snapshot.trace hx'
    case regs' =>
      subst hlast
      exact congrArg Snapshot.regs hx'

/-! The byte. -/

/-- From `x` to `y` the bits have been sent: the pulse train is in the trace, up to the end of the last high pulse. -/
structure Snapshot.Sent (x : Snapshot) (p : Params) (v : Byte) (bits : Nat) (hi lo : PortWord) (y : Snapshot) : Prop where
  upc : y.upc = 0x029#10
  timer : y.timer.Protocol p
  port : y.port = lo
  regs : y.regs = { x.regs with b := some (v <<< bits), i := some 0#8 }
  trace : y.trace = x.trace ++ pulseTrain p hi lo x.t (msbFirst v bits)
  last : y.trace.getLast? = some (y.t, lo)

theorem Snapshot.AtBit.runs_sent {p : Params} {hi lo : PortWord} (k : Nat) (hk : k + 1 < 256) {x : Snapshot} {v : Byte}
    (h : x.AtBit p v (BitVec.ofNat 8 (k + 1)) hi lo) (hovf : x.timer.ovf = true) :
    ∃ m y, Runs p m x y ∧ x.Sent p v (k + 1) hi lo y := by
  induction k generalizing x v with
  | zero =>
    refine ⟨_, _, h.runs_pulsed hovf, ?_⟩
    exact { upc := rfl, timer := h.pulsed_timer, port := rfl, regs := rfl, trace := rfl, last := by simp [Snapshot.pulsed] }
  | succ k ih =>
    have hne : BitVec.ofNat 8 (k + 1 + 1) ≠ 1#8 := by bv_omega
    have hnext := h.slotDone_atBit hne
    have hcount : BitVec.ofNat 8 (k + 1 + 1) - 1 = BitVec.ofNat 8 (k + 1) := by bv_omega
    rw [hcount] at hnext
    obtain ⟨m, y, hrun, hsent⟩ := ih (by omega) hnext h.slotDone_ovf
    refine ⟨_, y, (h.runs_slotDone hovf hne).trans hrun, ?_⟩
    exact
      { upc := hsent.upc, timer := hsent.timer, port := hsent.port, last := hsent.last
        regs := by rw [hsent.regs, ← BitVec.shiftLeft_add, Nat.add_comm 1]; rfl
        trace := by
          rw [hsent.trace, h.slotDone_t]
          exact List.append_assoc _ _ _ }

/-- The ticks to the next period boundary, none where it has come. -/
def Timer.toBoundary (tm : Timer) : Nat := if tm.ovf then 0 else tm.per - tm.cnt

theorem Timer.Counts.toBoundary {tm : Timer} {w : Nat} (h : tm.Counts w) :
    (tm.ticks w tm.toBoundary).ovf = true ∧ ∀ j < tm.toBoundary, (tm.ticks w j).ovf = false := by
  have hlt := h.cnt_lt
  cases hovf : tm.ovf with
  | true => simp [Timer.toBoundary, hovf, Timer.ticks]
  | false =>
    have hto : tm.toBoundary = tm.per - tm.cnt := by simp [Timer.toBoundary, hovf]
    rw [hto]
    refine ⟨?_, fun j hj => ?_⟩ <;> rw [h.ticks_ovf, hovf, Bool.false_or]
    · exact decide_eq_true (by omega)
    · exact decide_eq_false (by omega)

/-- Settles O59: LDBITS, the wait for the boundary, the bits, and RET. -/
theorem writeBitsSendsTheByteMsbFirst : Obligations.WriteBitsSendsTheByteMsbFirst := by
  intro s v hi lo ra o hs htimer hupc hb hhi hlo hlr hcnt ho
  have hprotocol : s.timer.Protocol s.params := (timerRunning_iff s).mp htimer
  obtain ⟨hovf, hearly⟩ := (hprotocol.counts hcnt).toBoundary
  have hle := hs.nbits
  obtain ⟨k, hk⟩ : ∃ k, s.params.nbits = k + 1 := ⟨7 + s.params.xtra, by rw [Params.nbits]; omega⟩
  have hn : (BitVec.ofNat 8 (k + 1)).toNat = s.params.nbits := by
    rw [BitVec.toNat_ofNat, Nat.mod_eq_of_lt (by omega), hk]
  have hload := Runs.ldbits (x := s.snapshot) hn hupc
  have hwait := hload.trans (.waitOvf rfl hearly)
  obtain ⟨m, y, hbits, hsent⟩ := Snapshot.AtBit.runs_sent (p := s.params) (hi := hi) (lo := lo) k (by omega)
    (x := Snapshot.ticks { s.snapshot with
      upc := 0x022#10, regs := { s.regs with i := some (BitVec.ofNat 8 (k + 1)) } } s.params.cntW s.timer.toBoundary)
    ⟨rfl, hprotocol.ticks _, hb, rfl, hhi, hlo⟩ hovf
  have hlr' : y.regs.lr = some ra := by rw [hsent.regs]; exact hlr
  obtain ⟨s', hrun, hs', hp', hx'⟩ := ((hwait.trans hbits).trans (.ret hsent.upc hlr')) s hs rfl rfl
  have hstart : s.t + s.timer.toBoundary = o := by
    rw [ho, Timer.toBoundary]
    split <;> rfl
  have htimer' : s'.timer.Protocol s'.params := by
    rw [hp', show s'.timer = y.timer from congrArg Snapshot.timer hx']
    exact hsent.timer
  refine ⟨_, s', hrun, hs', (timerRunning_iff s').mpr htimer', congrArg Snapshot.upc hx', ?regs, ?port, ?trace, ?last⟩
  case regs => rw [hk]; exact (congrArg Snapshot.regs hx').trans hsent.regs
  case port => exact (congrArg Snapshot.port hx').trans hsent.port
  case trace => rw [hk, ← hstart]; exact (congrArg Snapshot.trace hx').trans hsent.trace
  case last =>
    have htrace : s'.trace = y.trace := congrArg Snapshot.trace hx'
    have ht : s'.t = y.t := congrArg Snapshot.t hx'
    rw [htrace, ht]
    exact hsent.last

end Sys2Proof.Machine
